-- ==== Sys2Proof/Word.lean ====
section
/-! DEFINITION. The word types of C8CORE. Everything here is unsigned (R10): a `BitVec` of the width the spec gives. -/

namespace Sys2Proof

/-- A byte: a memory cell, a general register, a timer, an 8-bit immediate (R20, R81). -/
abbrev Byte := BitVec 8

/-- A 16-bit value: an instruction word, `I`, `pc`, a stack slot (R20, R80). -/
abbrev Word := BitVec 16

/-- A register index: the 4-bit `x` or `y` field, used directly (R81, R83). -/
abbrev RegIdx := BitVec 4

/-- The 4-bit immediate `n`, the height of Draw (R81). -/
abbrev Height := BitVec 4

/-- The 12-bit address immediate `nnn` (R81). -/
abbrev Addr12 := BitVec 12

end Sys2Proof
end

