-- ==== Sys2Proof/Config.lean ====
section
/-! DEFINITION. The fixed sizes of the block (R7), the parameters the spec fixes for this hardware (R8), and the one
free value. -/

namespace Sys2Proof.Config

/-- `MEM_SIZE`: the address space is 0x000..0xFFF (R7, R38). -/
abbrev memSize : Nat := 4096

/-- `PROG_BASE`: where a program image starts, and the reset value of `pc` (R7, R43). -/
abbrev progBase : Nat := 0x200

/-- `ROM_MAX` = 4096 − 0x200 (R8, R288; 90_conflicts.md C2). -/
abbrev romMax : Nat := 3584

/-- `FB_W`, the framebuffer's columns (R7, R31). -/
abbrev fbW : Nat := 64

/-- `FB_H`, the framebuffer's rows (R7, R31). -/
abbrev fbH : Nat := 32

/-- `STACK_DEPTH` (R7, R28). -/
abbrev stackDepth : Nat := 16

/-- `LOADSTORE_ADVANCES_I = false`: StoreRegisters and LoadMemory leave `I` unchanged (R8, R184, R185; K1). -/
def loadStoreAdvancesI : Bool := false

/-- DESIGN CHOICE (entry 2). The random byte of a cycle for which no port record is scheduled: a free draw under no
law (R8, R119, R162; K3). It has no body, so no proof can learn its value; the argument is the number of the cycle. -/
opaque freeRnd : Nat → Byte

end Sys2Proof.Config
end

