-- ==== Sys2Proof/Syntax.lean ====
section
/-! DEFINITION. The 34 instructions of C8CORE (R3, R92), one constructor per row of spec/opcode_table.json, in the
table's order. Operand fields have exactly the widths of R81, so an operand out of range cannot be written (R83). -/

namespace Sys2Proof

/-- One constructor per row of R92. The operands are those of the row, in the order of R98. -/
inductive Instr where
  /-- `00E0` ClearDisplay (R201). -/
  | clearDisplay
  /-- `00EE` Return (R130). -/
  | ret
  /-- `1NNN` Jump (R131). -/
  | jump (nnn : Addr12)
  /-- `2NNN` Call (R133). -/
  | call (nnn : Addr12)
  /-- `3XNN` SkipEqual (R134). -/
  | skipEqual (x : RegIdx) (nn : Byte)
  /-- `4XNN` SkipNotEqual (R135). -/
  | skipNotEqual (x : RegIdx) (nn : Byte)
  /-- `5XY0` SkipEqualXY (R136). -/
  | skipEqualXY (x y : RegIdx)
  /-- `6XNN` Load (R151). -/
  | load (x : RegIdx) (nn : Byte)
  /-- `7XNN` Add (R152). -/
  | add (x : RegIdx) (nn : Byte)
  /-- `8XY0` Move (R153). -/
  | move (x y : RegIdx)
  /-- `8XY1` Or (R154). -/
  | or (x y : RegIdx)
  /-- `8XY2` And (R155). -/
  | and (x y : RegIdx)
  /-- `8XY3` Xor (R156). -/
  | xor (x y : RegIdx)
  /-- `8XY4` AddXY (R157). -/
  | addXY (x y : RegIdx)
  /-- `8XY5` SubXY (R158). -/
  | subXY (x y : RegIdx)
  /-- `8X-6` ShiftRight (R160); the y nibble is ignored (R93). -/
  | shiftRight (x : RegIdx)
  /-- `8XY7` SubYX (R159). -/
  | subYX (x y : RegIdx)
  /-- `8X-E` ShiftLeft (R161); the y nibble is ignored (R93). -/
  | shiftLeft (x : RegIdx)
  /-- `9XY0` SkipNotEqualXY (R137). -/
  | skipNotEqualXY (x y : RegIdx)
  /-- `ANNN` LoadI (R180). -/
  | loadI (nnn : Addr12)
  /-- `BNNN` JumpV0 (R132). -/
  | jumpV0 (nnn : Addr12)
  /-- `CXNN` Random (R162). -/
  | random (x : RegIdx) (nn : Byte)
  /-- `DXYN` Draw (R202). -/
  | draw (x y : RegIdx) (n : Height)
  /-- `EX9E` SkipKeyPressed (R220). -/
  | skipKeyPressed (x : RegIdx)
  /-- `EXA1` SkipKeyNotPressed (R221). -/
  | skipKeyNotPressed (x : RegIdx)
  /-- `FX07` LoadDelay (R222). -/
  | loadDelay (x : RegIdx)
  /-- `FX0A` WaitKeyPress (R223). -/
  | waitKeyPress (x : RegIdx)
  /-- `FX15` SetDelay (R224). -/
  | setDelay (x : RegIdx)
  /-- `FX18` SetSound (R225). -/
  | setSound (x : RegIdx)
  /-- `FX1E` AddI (R181). -/
  | addI (x : RegIdx)
  /-- `FX29` LoadFont (R182). -/
  | loadFont (x : RegIdx)
  /-- `FX33` StoreBCD (R183). -/
  | storeBCD (x : RegIdx)
  /-- `FX55` StoreRegisters (R184). -/
  | storeRegisters (x : RegIdx)
  /-- `FX65` LoadMemory (R185). -/
  | loadMemory (x : RegIdx)
deriving DecidableEq, Repr

end Sys2Proof
end

