-- ==== Sys2Proof/WellFormed.lean ====
section
/-! DEFINITION. What a well-formed term is. Every `Instr` is well formed by its type: its operand fields have exactly
the widths of R81, and every value of a field is valid (R83; entry 11). What can be ill formed is an instruction WORD
(it matches no row of the opcode map, R95) and a program IMAGE (longer than the program area, R288). -/

namespace Sys2Proof

/-- A row of the opcode map: a word `w` selects it when `w &&& mask = code` (R92). -/
structure OpcodeRow where
  code : Word
  mask : Word
deriving DecidableEq, Repr

/-- `w` selects the row (R92). -/
def OpcodeRow.selects (r : OpcodeRow) (w : Word) : Bool := w &&& r.mask == r.code

/-- The row of R92 that gives an instruction its encoding (the table's `match` and `mask`). -/
def Instr.row : Instr → OpcodeRow
  | .clearDisplay => ⟨0x00E0, 0xFFFF⟩
  | .ret => ⟨0x00EE, 0xFFFF⟩
  | .jump _ => ⟨0x1000, 0xF000⟩
  | .call _ => ⟨0x2000, 0xF000⟩
  | .skipEqual _ _ => ⟨0x3000, 0xF000⟩
  | .skipNotEqual _ _ => ⟨0x4000, 0xF000⟩
  | .skipEqualXY _ _ => ⟨0x5000, 0xF00F⟩
  | .load _ _ => ⟨0x6000, 0xF000⟩
  | .add _ _ => ⟨0x7000, 0xF000⟩
  | .move _ _ => ⟨0x8000, 0xF00F⟩
  | .or _ _ => ⟨0x8001, 0xF00F⟩
  | .and _ _ => ⟨0x8002, 0xF00F⟩
  | .xor _ _ => ⟨0x8003, 0xF00F⟩
  | .addXY _ _ => ⟨0x8004, 0xF00F⟩
  | .subXY _ _ => ⟨0x8005, 0xF00F⟩
  | .shiftRight _ => ⟨0x8006, 0xF00F⟩
  | .subYX _ _ => ⟨0x8007, 0xF00F⟩
  | .shiftLeft _ => ⟨0x800E, 0xF00F⟩
  | .skipNotEqualXY _ _ => ⟨0x9000, 0xF00F⟩
  | .loadI _ => ⟨0xA000, 0xF000⟩
  | .jumpV0 _ => ⟨0xB000, 0xF000⟩
  | .random _ _ => ⟨0xC000, 0xF000⟩
  | .draw _ _ _ => ⟨0xD000, 0xF000⟩
  | .skipKeyPressed _ => ⟨0xE09E, 0xF0FF⟩
  | .skipKeyNotPressed _ => ⟨0xE0A1, 0xF0FF⟩
  | .loadDelay _ => ⟨0xF007, 0xF0FF⟩
  | .waitKeyPress _ => ⟨0xF00A, 0xF0FF⟩
  | .setDelay _ => ⟨0xF015, 0xF0FF⟩
  | .setSound _ => ⟨0xF018, 0xF0FF⟩
  | .addI _ => ⟨0xF01E, 0xF0FF⟩
  | .loadFont _ => ⟨0xF029, 0xF0FF⟩
  | .storeBCD _ => ⟨0xF033, 0xF0FF⟩
  | .storeRegisters _ => ⟨0xF055, 0xF0FF⟩
  | .loadMemory _ => ⟨0xF065, 0xF0FF⟩

/-- The complete opcode map, in R92's order. -/
def opcodeRows : List OpcodeRow :=
  [⟨0x00E0, 0xFFFF⟩, ⟨0x00EE, 0xFFFF⟩, ⟨0x1000, 0xF000⟩, ⟨0x2000, 0xF000⟩,
   ⟨0x3000, 0xF000⟩, ⟨0x4000, 0xF000⟩, ⟨0x5000, 0xF00F⟩, ⟨0x6000, 0xF000⟩, ⟨0x7000, 0xF000⟩] ++
  [⟨0x8000, 0xF00F⟩, ⟨0x8001, 0xF00F⟩, ⟨0x8002, 0xF00F⟩, ⟨0x8003, 0xF00F⟩, ⟨0x8004, 0xF00F⟩,
   ⟨0x8005, 0xF00F⟩, ⟨0x8006, 0xF00F⟩, ⟨0x8007, 0xF00F⟩, ⟨0x800E, 0xF00F⟩] ++
  [⟨0x9000, 0xF00F⟩, ⟨0xA000, 0xF000⟩, ⟨0xB000, 0xF000⟩, ⟨0xC000, 0xF000⟩, ⟨0xD000, 0xF000⟩,
   ⟨0xE09E, 0xF0FF⟩, ⟨0xE0A1, 0xF0FF⟩] ++
  [⟨0xF007, 0xF0FF⟩, ⟨0xF00A, 0xF0FF⟩, ⟨0xF015, 0xF0FF⟩, ⟨0xF018, 0xF0FF⟩, ⟨0xF01E, 0xF0FF⟩,
   ⟨0xF029, 0xF0FF⟩, ⟨0xF033, 0xF0FF⟩, ⟨0xF055, 0xF0FF⟩, ⟨0xF065, 0xF0FF⟩]

/-- A word is well formed when it selects a row of the opcode map; every other word is InvalidInstruction (R95). -/
def wordWellFormed (w : Word) : Bool := opcodeRows.any fun r => r.selects w

/-- A program image is well formed when it fits 0x200..0xFFF (R287, R288). -/
def imageWellFormed (image : List Byte) : Bool := image.length ≤ Config.romMax

/-- The six operand formats (R101). -/
inductive Format where
  | none | nnn | xNn | xY | xYN | x
deriving DecidableEq, Repr

/-- The operand format of each instruction (R101). -/
def Instr.format : Instr → Format
  | .clearDisplay | .ret => .none
  | .jump _ | .call _ | .loadI _ | .jumpV0 _ => .nnn
  | .skipEqual _ _ | .skipNotEqual _ _ | .load _ _ | .add _ _ | .random _ _ => .xNn
  | .skipEqualXY _ _ | .skipNotEqualXY _ _ | .move _ _ | .or _ _ | .and _ _ | .xor _ _
  | .addXY _ _ | .subXY _ _ | .subYX _ _ => .xY
  | .draw _ _ _ => .xYN
  | .shiftRight _ | .shiftLeft _ | .skipKeyPressed _ | .skipKeyNotPressed _ | .loadDelay _ | .waitKeyPress _
  | .setDelay _ | .setSound _ | .addI _ | .loadFont _ | .storeBCD _ | .storeRegisters _ | .loadMemory _ => .x

end Sys2Proof
end

