-- ==== Sys2Proof/Decode.lean ====
section
/-! DEFINITION. The decoder (R85–R95), total on every word and on every list of bytes, and after it the encoder (R92,
R98) and the assembler text (R98). A word that is none of the 34 instructions decodes to `none`: the step then raises
InvalidInstruction (R95, R111). -/

namespace Sys2Proof

/-- `w[15:12]`, the dispatch nibble (R81). -/
def fieldOp (w : Word) : BitVec 4 := w.extractLsb' 12 4
/-- `w[11:8]`, register index (R81). -/
def fieldX (w : Word) : RegIdx := w.extractLsb' 8 4
/-- `w[7:4]`, register index (R81). -/
def fieldY (w : Word) : RegIdx := w.extractLsb' 4 4
/-- `w[3:0]`, 4-bit immediate and sub-opcode (R81). -/
def fieldN (w : Word) : Height := w.extractLsb' 0 4
/-- `w[7:0]`, 8-bit immediate and sub-opcode (R81). -/
def fieldNN (w : Word) : Byte := w.extractLsb' 0 8
/-- `w[11:0]`, 12-bit address (R81). -/
def fieldNNN (w : Word) : Addr12 := w.extractLsb' 0 12

/-- Family 0x0 selects by the whole word (R86). -/
def decodeFamily0 (nnn : Addr12) : Option Instr :=
  match nnn with
  | 0x0E0#12 => some .clearDisplay
  | 0x0EE#12 => some .ret
  | _ => none

/-- Family 0x8 selects by `n` (R89); the shifts ignore `y` (R93). -/
def decodeFamily8 (x y : RegIdx) (n : Height) : Option Instr :=
  match n with
  | 0x0#4 => some (.move x y)
  | 0x1#4 => some (.or x y)
  | 0x2#4 => some (.and x y)
  | 0x3#4 => some (.xor x y)
  | 0x4#4 => some (.addXY x y)
  | 0x5#4 => some (.subXY x y)
  | 0x6#4 => some (.shiftRight x)
  | 0x7#4 => some (.subYX x y)
  | 0xE#4 => some (.shiftLeft x)
  | _ => none

/-- Family 0xE selects by `nn` (R90). -/
def decodeFamilyE (x : RegIdx) (nn : Byte) : Option Instr :=
  match nn with
  | 0x9E#8 => some (.skipKeyPressed x)
  | 0xA1#8 => some (.skipKeyNotPressed x)
  | _ => none

/-- Family 0xF selects by `nn` (R91). -/
def decodeFamilyF (x : RegIdx) (nn : Byte) : Option Instr :=
  match nn with
  | 0x07#8 => some (.loadDelay x)
  | 0x0A#8 => some (.waitKeyPress x)
  | 0x15#8 => some (.setDelay x)
  | 0x18#8 => some (.setSound x)
  | 0x1E#8 => some (.addI x)
  | 0x29#8 => some (.loadFont x)
  | 0x33#8 => some (.storeBCD x)
  | 0x55#8 => some (.storeRegisters x)
  | 0x65#8 => some (.loadMemory x)
  | _ => none

/-- The decoder: first the high nibble, then the secondary field (R85–R91). `none` is the decode failure (R95). -/
def decode (w : Word) : Option Instr :=
  match fieldOp w with
  | 0x0#4 => decodeFamily0 (fieldNNN w)
  | 0x1#4 => some (.jump (fieldNNN w))
  | 0x2#4 => some (.call (fieldNNN w))
  | 0x3#4 => some (.skipEqual (fieldX w) (fieldNN w))
  | 0x4#4 => some (.skipNotEqual (fieldX w) (fieldNN w))
  | 0x5#4 => if fieldN w = 0 then some (.skipEqualXY (fieldX w) (fieldY w)) else none
  | 0x6#4 => some (.load (fieldX w) (fieldNN w))
  | 0x7#4 => some (.add (fieldX w) (fieldNN w))
  | 0x8#4 => decodeFamily8 (fieldX w) (fieldY w) (fieldN w)
  | 0x9#4 => if fieldN w = 0 then some (.skipNotEqualXY (fieldX w) (fieldY w)) else none
  | 0xA#4 => some (.loadI (fieldNNN w))
  | 0xB#4 => some (.jumpV0 (fieldNNN w))
  | 0xC#4 => some (.random (fieldX w) (fieldNN w))
  | 0xD#4 => some (.draw (fieldX w) (fieldY w) (fieldN w))
  | 0xE#4 => decodeFamilyE (fieldX w) (fieldNN w)
  | 0xF#4 => decodeFamilyF (fieldX w) (fieldNN w)
  | _ => none

/-- The instruction word of two fetched bytes: the byte at the lower address is bits 15:8 (R63, R110). -/
def joinBytes (hi lo : Byte) : Word := hi ++ lo

/-- The decoder on bytes as memory holds them: every instruction is two bytes (R80), and the rest is handed back. -/
def decodeBytes : List Byte → Option (Instr × List Byte)
  | hi :: lo :: rest => (decode (joinBytes hi lo)).map fun i => (i, rest)
  | _ => none

/-- The encoder (R92; the ignored y nibble of a shift is assembled as 0, R98). -/
def encode : Instr → Word
  | .clearDisplay => 0x00E0#16
  | .ret => 0x00EE#16
  | .jump nnn => 0x1#4 ++ nnn
  | .call nnn => 0x2#4 ++ nnn
  | .skipEqual x nn => 0x3#4 ++ x ++ nn
  | .skipNotEqual x nn => 0x4#4 ++ x ++ nn
  | .skipEqualXY x y => 0x5#4 ++ x ++ y ++ 0x0#4
  | .load x nn => 0x6#4 ++ x ++ nn
  | .add x nn => 0x7#4 ++ x ++ nn
  | .move x y => 0x8#4 ++ x ++ y ++ 0x0#4
  | .or x y => 0x8#4 ++ x ++ y ++ 0x1#4
  | .and x y => 0x8#4 ++ x ++ y ++ 0x2#4
  | .xor x y => 0x8#4 ++ x ++ y ++ 0x3#4
  | .addXY x y => 0x8#4 ++ x ++ y ++ 0x4#4
  | .subXY x y => 0x8#4 ++ x ++ y ++ 0x5#4
  | .shiftRight x => 0x8#4 ++ x ++ 0x06#8
  | .subYX x y => 0x8#4 ++ x ++ y ++ 0x7#4
  | .shiftLeft x => 0x8#4 ++ x ++ 0x0E#8
  | .skipNotEqualXY x y => 0x9#4 ++ x ++ y ++ 0x0#4
  | .loadI nnn => 0xA#4 ++ nnn
  | .jumpV0 nnn => 0xB#4 ++ nnn
  | .random x nn => 0xC#4 ++ x ++ nn
  | .draw x y n => 0xD#4 ++ x ++ y ++ n
  | .skipKeyPressed x => 0xE#4 ++ x ++ 0x9E#8
  | .skipKeyNotPressed x => 0xE#4 ++ x ++ 0xA1#8
  | .loadDelay x => 0xF#4 ++ x ++ 0x07#8
  | .waitKeyPress x => 0xF#4 ++ x ++ 0x0A#8
  | .setDelay x => 0xF#4 ++ x ++ 0x15#8
  | .setSound x => 0xF#4 ++ x ++ 0x18#8
  | .addI x => 0xF#4 ++ x ++ 0x1E#8
  | .loadFont x => 0xF#4 ++ x ++ 0x29#8
  | .storeBCD x => 0xF#4 ++ x ++ 0x33#8
  | .storeRegisters x => 0xF#4 ++ x ++ 0x55#8
  | .loadMemory x => 0xF#4 ++ x ++ 0x65#8

/-- The high byte of a word, stored at the lower address (R63). -/
def hiByte (w : Word) : Byte := w.extractLsb' 8 8
/-- The low byte of a word, stored at the higher address (R63). -/
def loByte (w : Word) : Byte := w.extractLsb' 0 8

/-- An instruction as memory holds it (R63). -/
def encodeBytes (i : Instr) : List Byte := [hiByte (encode i), loByte (encode i)]

/-- The word of an opcode-table row, its bits numbered as the table numbers them: one 16-bit word (R80), so the bits
from `nbits` up are 0. -/
def tableWord (nbits w : Nat) : Word := BitVec.ofNat 16 (w % 2 ^ nbits)

/-- What the decoder reads from a table row's word: laid out in memory order (high byte first, R63), then decoded. -/
def decodeTableWord (nbits w : Nat) : Option Instr :=
  (decodeBytes [hiByte (tableWord nbits w), loByte (tableWord nbits w)]).map Prod.fst

/-! ### Assembler text (R98) -/

/-- One hexadecimal digit. -/
def hexDigit (d : BitVec 4) : String :=
  ["0", "1", "2", "3", "4", "5", "6", "7", "8", "9", "A", "B", "C", "D", "E", "F"].getD d.toNat "0"

/-- A register operand: `V0`..`VF` (R98). -/
def asmReg (x : RegIdx) : String := "V" ++ hexDigit x
/-- An 8-bit immediate, as two hexadecimal digits (R98; entry 16). -/
def asmByte (nn : Byte) : String := "0x" ++ hexDigit (nn.extractLsb' 4 4) ++ hexDigit (nn.extractLsb' 0 4)
/-- An address, as three hexadecimal digits (R98; entry 16). -/
def asmAddr (a : Addr12) : String :=
  "0x" ++ hexDigit (a.extractLsb' 8 4) ++ hexDigit (a.extractLsb' 4 4) ++ hexDigit (a.extractLsb' 0 4)
/-- A word of data: `.word 0xHHHH` (R98). -/
def asmWord (w : Word) : String :=
  ".word 0x" ++ hexDigit (fieldOp w) ++ hexDigit (fieldX w) ++ hexDigit (fieldY w) ++ hexDigit (fieldN w)
/-- The height of Draw, in decimal (R98). -/
def asmHeight (n : Height) : String :=
  ["0", "1", "2", "3", "4", "5", "6", "7", "8", "9", "10", "11", "12", "13", "14", "15"].getD n.toNat "0"

/-- The mnemonic: the source's variant name (R98, R99). -/
def mnemonic : Instr → String
  | .clearDisplay => "ClearDisplay"
  | .ret => "Return"
  | .jump _ => "Jump"
  | .call _ => "Call"
  | .skipEqual _ _ => "SkipEqual"
  | .skipNotEqual _ _ => "SkipNotEqual"
  | .skipEqualXY _ _ => "SkipEqualXY"
  | .load _ _ => "Load"
  | .add _ _ => "Add"
  | .move _ _ => "Move"
  | .or _ _ => "Or"
  | .and _ _ => "And"
  | .xor _ _ => "Xor"
  | .addXY _ _ => "AddXY"
  | .subXY _ _ => "SubXY"
  | .shiftRight _ => "ShiftRight"
  | .subYX _ _ => "SubYX"
  | .shiftLeft _ => "ShiftLeft"
  | .skipNotEqualXY _ _ => "SkipNotEqualXY"
  | .loadI _ => "LoadI"
  | .jumpV0 _ => "JumpV0"
  | .random _ _ => "Random"
  | .draw _ _ _ => "Draw"
  | .skipKeyPressed _ => "SkipKeyPressed"
  | .skipKeyNotPressed _ => "SkipKeyNotPressed"
  | .loadDelay _ => "LoadDelay"
  | .waitKeyPress _ => "WaitKeyPress"
  | .setDelay _ => "SetDelay"
  | .setSound _ => "SetSound"
  | .addI _ => "AddI"
  | .loadFont _ => "LoadFont"
  | .storeBCD _ => "StoreBCD"
  | .storeRegisters _ => "StoreRegisters"
  | .loadMemory _ => "LoadMemory"

/-- The operands of an instruction as R98 writes them, in R98's order. -/
def asmOperands : Instr → List String
  | .clearDisplay | .ret => []
  | .jump a | .call a | .loadI a | .jumpV0 a => [asmAddr a]
  | .skipEqual x nn | .skipNotEqual x nn | .load x nn | .add x nn | .random x nn => [asmReg x, asmByte nn]
  | .skipEqualXY x y | .skipNotEqualXY x y | .move x y | .or x y | .and x y | .xor x y
  | .addXY x y | .subXY x y | .subYX x y => [asmReg x, asmReg y]
  | .draw x y n => [asmReg x, asmReg y, asmHeight n]
  | .shiftRight x | .shiftLeft x | .skipKeyPressed x | .skipKeyNotPressed x | .loadDelay x | .waitKeyPress x
  | .setDelay x | .setSound x | .addI x | .loadFont x | .storeBCD x | .storeRegisters x | .loadMemory x => [asmReg x]

/-- Operands separated by commas (R98). -/
def asmJoin : List String → String
  | [] => ""
  | [a] => " " ++ a
  | a :: rest => " " ++ a ++ "," ++ asmJoin rest

/-- The assembler line of an instruction (R98). -/
def asm (i : Instr) : String := mnemonic i ++ asmJoin (asmOperands i)

/-- The listing of a word: its instruction, or `.word` data where it is none (R98). -/
def disassemble (w : Word) : String :=
  match decode w with
  | some i => asm i
  | none => asmWord w

end Sys2Proof
end

