-- ==== Sys2Proof/Machine/State.lean ====
section
/-! DEFINITION. The architectural state of C8CORE (R20), the block's input ports (R29), and why a step can stop.
State is plain data; `mem` is a canonical list (Sys2Proof/Machine/Ops.lean). -/

namespace Sys2Proof.Machine

/-- The memory: the (address, byte) pairs that differ from the reset contents, addresses strictly rising. What the reset
contents are depends on the parameter FONT. -/
abbrev Memory := List Host.Cell

/-- The framebuffer: 32 rows of 64 one-bit pixels, `true` = on (R31, R200). -/
abbrev Framebuffer := Vector (Vector Bool 64) 32

/-- The input ports of R29 in one clock cycle. `clk` has no field: one record is one cycle. -/
structure Ports where
  /-- Full reset (R280). -/
  rst : Bool := false
  /-- The four partial clears (R283). -/
  clrMem : Bool := false
  clrRegs : Bool := false
  clrStack : Bool := false
  clrTimers : Bool := false
  /-- Execute one instruction in this cycle (R113). -/
  step : Bool := true
  /-- Timer strobe (R255). -/
  tick : Bool := false
  /-- A key is pressed, and its code (R39, R40). -/
  keyValid : Bool := false
  keyCode : BitVec 4 := 0
  /-- The random byte of this cycle (R119, R162). -/
  rnd : Byte := 0
  /-- The host clears DIRTY (R208). -/
  dirtyClr : Bool := false
  /-- The memory load port (R287). -/
  ldWe : Bool := false
  ldOff : BitVec 12 := 0
  ldData : Byte := 0
  /-- The framebuffer read address (R206). -/
  fbRx : BitVec 6 := 0
  fbRy : BitVec 5 := 0
deriving DecidableEq, Repr

/-- The output `result` of a cycle (R14, R29, R113). -/
inductive StepResult where
  /-- 0: no step was executed in the cycle. -/
  | idle
  /-- 1 CONTINUE: the instruction completed and wrote `pc`. -/
  | continued
  /-- 2 WAIT: WaitKeyPress found no key; `pc` is unchanged. -/
  | waiting
  /-- 3 FAULT: the step raised a fault. -/
  | faulted
deriving DecidableEq, Repr

/-- The faults of the hardware (R13, R35, R240–R243). A step that raises one takes a NEXT state, with the fault latch
written (R244). -/
inductive FaultKind where
  | invalidInstruction
  | stackUnderflow
  | stackOverflow
  /-- Defined by the spec, raised by no step (R121, R243). -/
  | invalidRegister
deriving DecidableEq, Repr

/-- The whole state (R20). The last four fields are the model's own (entries 1, 2, 3, 7): R20 says that inputs and
outputs are not state, and FONT is a parameter of the block (R45). -/
structure State where
  /-- `MEM[0..4095]` (R38, R60). -/
  mem : Memory
  /-- `V[0..15]`; VF is `V[15]` (R22, R23). -/
  v : Vector Byte 16
  /-- The index register (R27). -/
  I : Word
  /-- The program counter (R25, R26). -/
  pc : Word
  /-- `STACK[0..15]` (R28). -/
  stack : Vector Word 16
  /-- `SP`, the number of entries held, 0..16 (R28, R36, R37). -/
  sp : BitVec 5
  /-- The delay timer (R30). -/
  dt : Byte
  /-- The sound timer (R30). -/
  st : Byte
  /-- The framebuffer (R31). -/
  fb : Framebuffer
  /-- `DIRTY` (R32). -/
  dirty : Bool
  /-- `FAULT_CODE`; 0 = no fault (R34, R35). -/
  faultCode : BitVec 3
  /-- `FAULT_WORD` (R34). -/
  faultWord : Word
  /-- `FAULT_PC` (R34). -/
  faultPc : Word
  /-- The model's own: the output `result` of the last cycle (R29, R113; entry 3). -/
  result : StepResult
  /-- The model's own: the port values of the coming cycles, oldest first (R29; entry 1). -/
  inputs : List Ports
  /-- The model's own: the number of cycles that have passed (entry 2). -/
  cycle : Nat
  /-- The model's own: the value of the parameter FONT, any 80 bytes (R45, D14, K7; entry 7). No step changes it. -/
  font : Font
deriving DecidableEq, Repr

/-- The state right after reset of a block whose parameter FONT is `font` (R43, R280): `pc` = 0x0200, everything else 0,
memory with nothing listed (it reads as the font and zeros). `result`, `inputs` and `cycle` are the model's own: DESIGN
CHOICE (entries 1, 2, 3). -/
def State.resetWith (font : Font) : State where
  mem := []
  v := Vector.replicate 16 0
  I := 0
  pc := 0x0200
  stack := Vector.replicate 16 0
  sp := 0
  dt := 0
  st := 0
  fb := Vector.replicate 32 (Vector.replicate 64 false)
  dirty := false
  faultCode := 0
  faultWord := 0
  faultPc := 0
  result := .idle
  inputs := []
  cycle := 0
  font := font

/-- The state right after reset, with FONT at its default (R43, R45). -/
def State.reset : State := State.resetWith defaultFont

/-- Why the MODEL would stop with a fault. The hardware's faults are next states (R244); the spec gives no behaviour
at which the block itself stops. -/
inductive Fault where
  /-- Raised by no step: the spec's internal-invariant violation, "A model has no step that raises it" (R121, R243).
  Safe: unreachable. -/
  | invalidRegister
deriving DecidableEq, Repr

/-- Why the model refuses. -/
inductive Refusal where
  /-- An instruction without a meaning yet, by its mnemonic: raised by an arm of `exec` only, and no arm raises it
  now. Safe. -/
  | notModelled (mnemonic : String)
  /-- Raised by the loader (Sys2Proof/Machine/Boot.lean), outside the clock cycle: the image is longer than 3584
  bytes, and a loader "must refuse it rather than load a prefix" (R288). Safe. -/
  | imageTooLong
deriving DecidableEq, Repr

/-- The outcome of a step of this machine. -/
abbrev Result := Host.Outcome State Fault Refusal

end Sys2Proof.Machine
end

