-- ==== Sys2Proof/Machine/Ops.lean ====
section
/-! DEFINITION. The named operations over memory, registers, stack and framebuffer; how an instruction ends a step
(R14, R116); taking a fault (R244) and, beside it, leaving the faulted state (R247). -/

namespace Sys2Proof.Machine

/-! ### Memory -/

/-- `a12(v)`, the reduction of every address presented to memory (R10, R62). -/
def a12 (v : Nat) : Nat := v % Config.memSize

/-- What an address that is not listed reads as: the reset contents, FONT at 0x000..0x04F and 0x00 above (R43). -/
def resetByte (font : Font) (a : Nat) : Byte := if h : a < 80 then font[a] else 0

/-- The byte at a (reduced) address. -/
def Memory.read (font : Font) : Memory → Nat → Byte
  | [], a => resetByte font a
  | (k, b) :: m, a => if k = a then b else Memory.read font m a

/-- `b` at the head of `m` under the address `a`, unless that is what `a` reads as unlisted. -/
def Memory.cons (font : Font) (m : Memory) (a : Nat) (b : Byte) : Memory :=
  if b = resetByte font a then m else (a, b) :: m

/-- One byte written at a (reduced) address; the canonical form is kept. -/
def Memory.write (font : Font) : Memory → Nat → Byte → Memory
  | [], a, b => Memory.cons font [] a b
  | (k, c) :: m, a, b =>
    if a < k then Memory.cons font ((k, c) :: m) a b
    else if a = k then Memory.cons font m a b
    else (k, c) :: Memory.write font m a b

/-- Every listed address lies in `lo .. 0xFFF`, the addresses rise strictly, and no entry equals what its address
reads as unlisted. -/
def Memory.wfFrom (font : Font) : Nat → Memory → Bool
  | _, [] => true
  | lo, (k, b) :: m =>
    decide (lo ≤ k) && decide (k < Config.memSize) && decide (b ≠ resetByte font k) && Memory.wfFrom font (k + 1) m

/-- The canonical form of memory. -/
def Memory.wf (font : Font) (m : Memory) : Bool := Memory.wfFrom font 0 m

/-- Bytes written one at a time at `a12(addr)`, `a12(addr + 1)`, … (R61, R62, R64). -/
def Memory.writeBytes (font : Font) (m : Memory) (addr : Nat) : List Byte → Memory
  | [] => m
  | b :: bs => Memory.writeBytes font (m.write font (a12 addr) b) (addr + 1) bs

/-- `MEM[a]` of a (reduced) address. -/
def State.byteAt (s : State) (a : Nat) : Byte := s.mem.read s.font a

/-- The memory is in its canonical form, for the block's FONT. -/
def State.memWf (s : State) : Bool := s.mem.wf s.font

/-- `MemRead(addr, 1)` (R12). -/
def State.memRead (s : State) (addr : Nat) : Byte := s.byteAt (a12 addr)

/-- `MemWrite(addr, 1, v)` for each byte of a sequence at rising addresses (R12, R61). -/
def State.memWriteBytes (s : State) (addr : Nat) (bs : List Byte) : State :=
  { s with mem := s.mem.writeBytes s.font addr bs }

/-- Instruction fetch: `MemRead(pc, 1) ++ MemRead(u16(pc + 1), 1)`, big-endian (R63, R110). It never faults. -/
def State.fetchWord (s : State) : Word := s.memRead s.pc.toNat ++ s.memRead (s.pc + 1).toNat

/-! ### Registers -/

/-- `V[x]` (R22). -/
def State.readV (s : State) (x : RegIdx) : Byte := s.v[x.toNat]'x.isLt

/-- `V[x] <- b` (R22): no register is hardwired. -/
def State.writeV (s : State) (x : RegIdx) (b : Byte) : State := { s with v := s.v.set x.toNat b x.isLt }

/-- VF is `V[15]` (R19, R23). -/
abbrev vfIdx : RegIdx := 0xF#4

/-- `V[k] <- MemRead(addr + k, 1)` for k below a count, in rising order (R185). -/
def State.loadRegs (s : State) (addr : Nat) : Nat → State
  | 0 => s
  | k + 1 => (State.loadRegs s addr k).writeV (BitVec.ofNat 4 k) (s.memRead (addr + k))

/-- `I <- w` (R27). -/
def State.setI (s : State) (w : Word) : State := { s with I := w }

/-- `pc <- w` (R25). -/
def State.setPc (s : State) (w : Word) : State := { s with pc := w }

/-- `DT <- b` (R30). -/
def State.setDt (s : State) (b : Byte) : State := { s with dt := b }

/-- `ST <- b` (R30). -/
def State.setSt (s : State) (b : Byte) : State := { s with st := b }

/-- The output `result` of the cycle (R113). -/
def State.setResult (s : State) (r : StepResult) : State := { s with result := r }

/-! ### Stack (R28) -/

/-- `STACK[k]`. A slot is named by the low four bits of a count; the count is 0..15 wherever a step reads or writes a
slot in a state that a run reaches (R37; entry 5). -/
def State.readStack (s : State) (k : BitVec 5) : Word := s.stack[k.toNat % 16]'(Nat.mod_lt _ (by decide))

/-- A push writes `STACK[SP]`, then increments SP (R28, R133). -/
def State.push (s : State) (w : Word) : State :=
  { s with stack := s.stack.set (s.sp.toNat % 16) w (Nat.mod_lt _ (by decide)), sp := s.sp + 1 }

/-- A pop decrements SP; the popped slot, then `STACK[SP]`, keeps its value (R28, R130). -/
def State.pop (s : State) : State := { s with sp := s.sp - 1 }

/-! ### Framebuffer (R31, R200) -/

/-- `FB[r][c]`. -/
def Framebuffer.pixel (fb : Framebuffer) (r : Fin 32) (c : Fin 64) : Bool := fb[r.val][c.val]

/-- `FB[r][c] <- FB[r][c] ^ 1` (R202). -/
def Framebuffer.toggle (fb : Framebuffer) (r : Fin 32) (c : Fin 64) : Framebuffer :=
  fb.set r.val (fb[r.val].set c.val (!fb[r.val][c.val]))

/-- Every pixel off (R201). -/
def Framebuffer.blank : Framebuffer := Vector.replicate 32 (Vector.replicate 64 false)

/-- The framebuffer written by ClearDisplay or Draw, which mark the frame dirty (R32, R201, R202). -/
def State.setFrame (s : State) (fb : Framebuffer) : State := { s with fb := fb, dirty := true }

/-! ### How an instruction ends its step (R14, R116) -/

/-- CONTINUE with the next pc. -/
def continueAt (target : Word) (s : State) : Result := .next ((s.setPc target).setResult .continued)

/-- CONTINUE at the next instruction: `pc <- u16(pc + 2)` (R115). -/
def advance (s : State) : Result := continueAt (s.pc + 2) s

/-- CONTINUE past the next instruction when the condition holds: `u16(pc + 4)`, else `u16(pc + 2)` (R116). -/
def skipIf (c : Bool) (s : State) : Result := continueAt (if c then s.pc + 4 else s.pc + 2) s

/-- WAIT: no state changes, pc included (R14, R120). -/
def waitHere (s : State) : Result := .next (s.setResult .waiting)

/-! ### Taking a fault, and leaving the faulted state -/

/-- `code(F)` (R35). -/
def FaultKind.code : FaultKind → BitVec 3
  | .invalidInstruction => 1
  | .stackUnderflow => 2
  | .stackOverflow => 3
  | .invalidRegister => 4

/-- The two-bit code of the output `result` (R29). -/
def StepResult.code : StepResult → BitVec 2
  | .idle => 0
  | .continued => 1
  | .waiting => 2
  | .faulted => 3

/-- The fault latch written (R34). -/
def State.latchFault (s : State) (f : FaultKind) (w : Word) : State :=
  { s with faultCode := f.code, faultWord := w, faultPc := s.pc }

/-- `raise F(w, pc)`: the fault latch takes the code, the word and the pc of the faulting step, and nothing else
changes: no vector, no handler, no mode, no stack push (R13, R244, R245). -/
def raise (f : FaultKind) (w : Word) (s : State) : Result := .next ((s.latchFault f w).setResult .faulted)

/-- Full reset, the only way out of the faulted state (R247, R280): every piece of state takes its reset value,
whatever it was before (R282). The model's own `inputs` and `cycle` go on: they are the environment's time, not the
block's state (entry 10); and FONT is the block's. -/
def State.fullReset (s : State) : State := { State.resetWith s.font with inputs := s.inputs, cycle := s.cycle }

end Sys2Proof.Machine
end

