-- ==== Sys2Proof/Machine/Operands.lean ====
section
/-! DEFINITION. Every operand form (R81, R83, R186) and the inputs a step reads (R39, R40, R119). A register operand is
`State.readV`; an 8-bit immediate is the field itself; a 4-bit immediate is used as its value. -/

namespace Sys2Proof.Machine

/-- An address operand: `zext_16(nnn)` (R83). -/
def addrOperand (nnn : Addr12) : Word := nnn.setWidth 16

/-- `zext_16(v)` of a byte (R10, R132, R181). -/
def zext16 (b : Byte) : Word := b.setWidth 16

/-- The one data addressing mode: `I + k`, exact, reduced by a12 at the access (R186). -/
def State.dataAddr (s : State) (k : Nat) : Nat := s.I.toNat + k

/-- How many registers StoreRegisters and LoadMemory move: V[0..x], inclusive (R184, R185). -/
def regCount (x : RegIdx) : Nat := x.toNat + 1

/-- The bytes StoreRegisters stores, V[0]..V[x] (R184). -/
def State.regBytes (s : State) (x : RegIdx) : List Byte := s.v.toList.take (regCount x)

/-- `I` after StoreRegisters or LoadMemory: unchanged, since LOADSTORE_ADVANCES_I is false (R8, R184, R185; K1). -/
def State.indexAfterBlock (s : State) (x : RegIdx) : Word :=
  if Config.loadStoreAdvancesI then s.I + BitVec.ofNat 16 (regCount x) else s.I

/-- The decimal digits StoreBCD stores: hundreds, tens, ones (R183). -/
def bcdDigits (b : Byte) : List Byte := [b / 100, (b / 10) % 10, b % 10]

/-- Draw's row: `(vy + row) % 32` (R202). -/
def drawRowOf (vy : Byte) (row : Nat) : Fin 32 := ⟨(vy.toNat + row) % 32, Nat.mod_lt _ (by decide)⟩

/-- Draw's column: `(vx + col) % 64` (R202). -/
def drawColOf (vx : Byte) (col : Nat) : Fin 64 := ⟨(vx.toNat + col) % 64, Nat.mod_lt _ (by decide)⟩

/-- Bit `7 - col` of a sprite byte: column 0 is the most significant bit (R202). -/
def spriteBit (sprite : Byte) (col : Nat) : Bool := sprite.getLsbD (7 - col)

/-- The port values of the current cycle: the oldest scheduled record; where none is scheduled, a plain running cycle
(`step` asserted, no other strobe, no key) whose random byte is free. DESIGN CHOICE (entries 1 and 2). -/
def State.ports (s : State) : Ports :=
  match s.inputs with
  | p :: _ => p
  | [] => { rnd := Config.freeRnd s.cycle }

/-- `key()`: the pressed key's code, or none (R40). -/
def Ports.key (p : Ports) : Option (BitVec 4) := if p.keyValid then some p.keyCode else none

/-- `key() != none and key() = v` (R220): a value above 0x0F matches no key. -/
def keyIs (k : Option (BitVec 4)) (v : Byte) : Bool :=
  match k with
  | some c => c.setWidth 8 == v
  | none => false

end Sys2Proof.Machine
end

