-- ==== Sys2Proof/Machine/Flags.lean ====
section
/-! DEFINITION. VF, the only flag of the hardware (R23, R33), in each form an instruction computes it, and the
flag-last order of result and flag (R118). -/

namespace Sys2Proof.Machine

/-- A flag as VF holds it: 0x01 or 0x00. -/
def flagByte (b : Bool) : Byte := if b then 1 else 0

/-- AddXY's carry: 1 iff the exact sum exceeds 255 (R157). -/
def carryFlag (a b : Byte) : Bool := decide (255 < a.toNat + b.toNat)

/-- The not-borrow of `a - b`: 1 iff a ≥ b (R158, R159). -/
def notBorrowFlag (a b : Byte) : Bool := decide (b.toNat ≤ a.toNat)

/-- ShiftRight's flag: the old bit 0 (R160). -/
def shiftedOutRight (a : Byte) : Bool := a.getLsbD 0

/-- ShiftLeft's flag: the old bit 7 (R161). -/
def shiftedOutLeft (a : Byte) : Bool := a.getLsbD 7

/-- The result goes to `V[x]` first and the flag to VF second, so VF holds the flag when x = 0xF (R118). -/
def State.writeFlagged (s : State) (x : RegIdx) (result : Byte) (flag : Bool) : State :=
  (s.writeV x result).writeV vfIdx (flagByte flag)

end Sys2Proof.Machine
end

