-- ==== Sys2Proof/Machine/Alu.lean ====
section
/-! DEFINITION. The register-file ALU (42_alu.md): 8-bit unsigned, wrapping; every instruction ends with
`pc <- u16(pc + 2)` and raises nothing (R150). -/

namespace Sys2Proof.Machine

/-- Load (R151): `V[x] <- nn`. -/
def execLoad (x : RegIdx) (nn : Byte) (s : State) : Result := advance (s.writeV x nn)

/-- Add (R152): `V[x] <- u8(vx + nn)`; VF is untouched by the overflow. -/
def execAdd (x : RegIdx) (nn : Byte) (s : State) : Result := advance (s.writeV x (s.readV x + nn))

/-- Move (R153): `V[x] <- vy`. -/
def execMove (x y : RegIdx) (s : State) : Result := advance (s.writeV x (s.readV y))

/-- Or (R154): `V[x] <- vx | vy`; VF is not reset. -/
def execOr (x y : RegIdx) (s : State) : Result := advance (s.writeV x (s.readV x ||| s.readV y))

/-- And (R155): `V[x] <- vx & vy`; VF is not reset. -/
def execAnd (x y : RegIdx) (s : State) : Result := advance (s.writeV x (s.readV x &&& s.readV y))

/-- Xor (R156): `V[x] <- vx ^ vy`; VF is not reset. -/
def execXor (x y : RegIdx) (s : State) : Result := advance (s.writeV x (s.readV x ^^^ s.readV y))

/-- AddXY (R157): the wrapped sum, then VF = carry. -/
def execAddXY (x y : RegIdx) (s : State) : Result :=
  advance (s.writeFlagged x (s.readV x + s.readV y) (carryFlag (s.readV x) (s.readV y)))

/-- SubXY (R158): `u8(vx - vy)`, then VF = not-borrow. -/
def execSubXY (x y : RegIdx) (s : State) : Result :=
  advance (s.writeFlagged x (s.readV x - s.readV y) (notBorrowFlag (s.readV x) (s.readV y)))

/-- SubYX (R159): `u8(vy - vx)`, then VF = not-borrow of the reversed operands. -/
def execSubYX (x y : RegIdx) (s : State) : Result :=
  advance (s.writeFlagged x (s.readV y - s.readV x) (notBorrowFlag (s.readV y) (s.readV x)))

/-- ShiftRight (R160): `vx >> 1`, then VF = the old bit 0; V[y] is neither read nor written (R93). -/
def execShiftRight (x : RegIdx) (s : State) : Result :=
  advance (s.writeFlagged x (s.readV x >>> 1) (shiftedOutRight (s.readV x)))

/-- ShiftLeft (R161): `u8(vx << 1)`, then VF = the old bit 7; V[y] is neither read nor written (R93). -/
def execShiftLeft (x : RegIdx) (s : State) : Result :=
  advance (s.writeFlagged x (s.readV x <<< 1) (shiftedOutLeft (s.readV x)))

/-- Random (R162): `V[x] <- rnd & nn`, `rnd` being the port's value in the step's cycle (R119). -/
def execRandom (x : RegIdx) (nn : Byte) (s : State) : Result := advance (s.writeV x (s.ports.rnd &&& nn))

end Sys2Proof.Machine
end

