-- ==== Sys2Proof/Machine/Display.lean ====
section
/-! DEFINITION. The framebuffer write controller (44_display.md): ClearDisplay and Draw. -/

namespace Sys2Proof.Machine

/-- One set sprite bit: the collision is recorded, then the pixel is toggled (R202). -/
def drawPixel (r : Fin 32) (c : Fin 64) (a : Framebuffer × Bool) : Framebuffer × Bool :=
  (a.1.toggle r c, a.2 || a.1.pixel r c)

/-- The first `k` columns of one sprite byte, in rising order (R202). -/
def drawCols (sprite vx : Byte) (r : Fin 32) : Nat → Framebuffer × Bool → Framebuffer × Bool
  | 0, a => a
  | k + 1, a =>
    if spriteBit sprite k then drawPixel r (drawColOf vx k) (drawCols sprite vx r k a)
    else drawCols sprite vx r k a

/-- The first `k` rows of the sprite at `addr`, in rising order; a row's byte is read when the row is drawn (R202). -/
def drawRows (byteAt : Nat → Byte) (addr : Nat) (vx vy : Byte) : Nat → Framebuffer × Bool → Framebuffer × Bool
  | 0, a => a
  | k + 1, a => drawCols (byteAt (a12 (addr + k))) vx (drawRowOf vy k) 8 (drawRows byteAt addr vx vy k a)

/-- ClearDisplay (R201): every pixel off, DIRTY set; VF is untouched. -/
def execClearDisplay (s : State) : Result := advance (s.setFrame Framebuffer.blank)

/-- The framebuffer and the collision a Draw computes from the state at the start of its step (R202). -/
def State.drawn (s : State) (x y : RegIdx) (n : Height) : Framebuffer × Bool :=
  drawRows s.byteAt (s.dataAddr 0) (s.readV x) (s.readV y) n.toNat (s.fb, false)

/-- Draw (R202): the sprite's set bits toggle pixels, DIRTY is set, and VF takes the collision last (R118). -/
def execDraw (x y : RegIdx) (n : Height) (s : State) : Result :=
  advance ((s.setFrame (s.drawn x y n).1).writeV vfIdx (flagByte (s.drawn x y n).2))

end Sys2Proof.Machine
end

