-- ==== Sys2Proof/Machine/Flow.lean ====
section
/-! DEFINITION. Control flow (41_flow.md): Return, Jump, JumpV0, Call and the skips on registers. -/

namespace Sys2Proof.Machine

/-- Return (R130): StackUnderflow on an empty stack, else `SP <- SP - 1; pc <- STACK[SP]`, the popped value as is. -/
def execRet (s : State) : Result :=
  if s.sp = 0 then raise .stackUnderflow (encode .ret) s
  else continueAt (s.readStack (s.sp - 1)) s.pop

/-- Jump (R131): `pc <- zext_16(nnn)`, never checked. -/
def execJump (nnn : Addr12) (s : State) : Result := continueAt (addrOperand nnn) s

/-- JumpV0 (R132): `pc <- u16(zext_16(nnn) + zext_16(v0))`. -/
def execJumpV0 (nnn : Addr12) (s : State) : Result := continueAt (addrOperand nnn + zext16 (s.readV 0)) s

/-- Call (R133): StackOverflow when the stack holds 16 entries, else push `u16(pc + 2)` and `pc <- zext_16(nnn)`. -/
def execCall (nnn : Addr12) (s : State) : Result :=
  if s.sp = 16 then raise .stackOverflow (encode (.call nnn)) s
  else continueAt (addrOperand nnn) (s.push (s.pc + 2))

/-- SkipEqual (R134). -/
def execSkipEqual (x : RegIdx) (nn : Byte) (s : State) : Result := skipIf (s.readV x == nn) s

/-- SkipNotEqual (R135). -/
def execSkipNotEqual (x : RegIdx) (nn : Byte) (s : State) : Result := skipIf (s.readV x != nn) s

/-- SkipEqualXY (R136). -/
def execSkipEqualXY (x y : RegIdx) (s : State) : Result := skipIf (s.readV x == s.readV y) s

/-- SkipNotEqualXY (R137). -/
def execSkipNotEqualXY (x y : RegIdx) (s : State) : Result := skipIf (s.readV x != s.readV y) s

end Sys2Proof.Machine
end

