-- ==== Sys2Proof/Machine/IndexMemory.lean ====
section
/-! DEFINITION. The index register and memory load-store (43_index_memory.md): every instruction ends with
`pc <- u16(pc + 2)`, writes no flag and raises nothing. -/

namespace Sys2Proof.Machine

/-- LoadI (R180): `I <- zext_16(nnn)`. -/
def execLoadI (nnn : Addr12) (s : State) : Result := advance (s.setI (addrOperand nnn))

/-- AddI (R181): `I <- u16(i0 + zext_16(vx))`; no flag. -/
def execAddI (x : RegIdx) (s : State) : Result := advance (s.setI (s.I + zext16 (s.readV x)))

/-- LoadFont (R182): `I <- zext_16(vx) × 5`, with no masking to the low nibble. -/
def execLoadFont (x : RegIdx) (s : State) : Result := advance (s.setI (zext16 (s.readV x) * 5))

/-- StoreBCD (R183): the three decimal digits of vx at I, I+1, I+2. -/
def execStoreBCD (x : RegIdx) (s : State) : Result :=
  advance (s.memWriteBytes (s.dataAddr 0) (bcdDigits (s.readV x)))

/-- StoreRegisters (R184): V[0..x] to I..I+x; I is unchanged. -/
def execStoreRegisters (x : RegIdx) (s : State) : Result :=
  advance ((s.memWriteBytes (s.dataAddr 0) (s.regBytes x)).setI (s.indexAfterBlock x))

/-- LoadMemory (R185): V[0..x] from I..I+x; I is unchanged. -/
def execLoadMemory (x : RegIdx) (s : State) : Result :=
  advance ((s.loadRegs (s.dataAddr 0) (regCount x)).setI (s.indexAfterBlock x))

end Sys2Proof.Machine
end

