-- ==== Sys2Proof/Machine/InputTimer.lean ====
section
/-! DEFINITION. Key and timer instructions (45_input_timer.md). -/

namespace Sys2Proof.Machine

/-- SkipKeyPressed (R220): skips iff a key is pressed and its code is vx. -/
def execSkipKeyPressed (x : RegIdx) (s : State) : Result := skipIf (keyIs s.ports.key (s.readV x)) s

/-- SkipKeyNotPressed (R221): skips iff no key is pressed or its code is not vx. -/
def execSkipKeyNotPressed (x : RegIdx) (s : State) : Result := skipIf (!keyIs s.ports.key (s.readV x)) s

/-- LoadDelay (R222): `V[x] <- DT`, as it stands before the cycle's tick. -/
def execLoadDelay (x : RegIdx) (s : State) : Result := advance (s.writeV x s.dt)

/-- WaitKeyPress (R223): WAIT while no key is pressed; else `V[x] <- key()`. Level-sensitive. -/
def execWaitKeyPress (x : RegIdx) (s : State) : Result :=
  match s.ports.key with
  | none => waitHere s
  | some c => advance (s.writeV x (c.setWidth 8))

/-- SetDelay (R224): `DT <- vx`. -/
def execSetDelay (x : RegIdx) (s : State) : Result := advance (s.setDt (s.readV x))

/-- SetSound (R225): `ST <- vx`. -/
def execSetSound (x : RegIdx) (s : State) : Result := advance (s.setSt (s.readV x))

end Sys2Proof.Machine
end

