-- ==== Sys2Proof/Machine/Dispatch.lean ====
section
/-! DEFINITION. The execute step: "a single exhaustive switch over that variant set" (R112), one arm per instruction. -/

namespace Sys2Proof.Machine

def exec (i : Instr) (s : State) : Host.Outcome State Fault Refusal :=
  match i with
  | .clearDisplay => Sys2Proof.Machine.execClearDisplay s
  | .ret => Sys2Proof.Machine.execRet s
  | .jump nnn => Sys2Proof.Machine.execJump nnn s
  | .call nnn => Sys2Proof.Machine.execCall nnn s
  | .skipEqual x nn => Sys2Proof.Machine.execSkipEqual x nn s
  | .skipNotEqual x nn => Sys2Proof.Machine.execSkipNotEqual x nn s
  | .skipEqualXY x y => Sys2Proof.Machine.execSkipEqualXY x y s
  | .load x nn => Sys2Proof.Machine.execLoad x nn s
  | .add x nn => Sys2Proof.Machine.execAdd x nn s
  | .move x y => Sys2Proof.Machine.execMove x y s
  | .or x y => Sys2Proof.Machine.execOr x y s
  | .and x y => Sys2Proof.Machine.execAnd x y s
  | .xor x y => Sys2Proof.Machine.execXor x y s
  | .addXY x y => Sys2Proof.Machine.execAddXY x y s
  | .subXY x y => Sys2Proof.Machine.execSubXY x y s
  | .shiftRight x => Sys2Proof.Machine.execShiftRight x s
  | .subYX x y => Sys2Proof.Machine.execSubYX x y s
  | .shiftLeft x => Sys2Proof.Machine.execShiftLeft x s
  | .skipNotEqualXY x y => Sys2Proof.Machine.execSkipNotEqualXY x y s
  | .loadI nnn => Sys2Proof.Machine.execLoadI nnn s
  | .jumpV0 nnn => Sys2Proof.Machine.execJumpV0 nnn s
  | .random x nn => Sys2Proof.Machine.execRandom x nn s
  | .draw x y n => Sys2Proof.Machine.execDraw x y n s
  | .skipKeyPressed x => Sys2Proof.Machine.execSkipKeyPressed x s
  | .skipKeyNotPressed x => Sys2Proof.Machine.execSkipKeyNotPressed x s
  | .loadDelay x => Sys2Proof.Machine.execLoadDelay x s
  | .waitKeyPress x => Sys2Proof.Machine.execWaitKeyPress x s
  | .setDelay x => Sys2Proof.Machine.execSetDelay x s
  | .setSound x => Sys2Proof.Machine.execSetSound x s
  | .addI x => Sys2Proof.Machine.execAddI x s
  | .loadFont x => Sys2Proof.Machine.execLoadFont x s
  | .storeBCD x => Sys2Proof.Machine.execStoreBCD x s
  | .storeRegisters x => Sys2Proof.Machine.execStoreRegisters x s
  | .loadMemory x => Sys2Proof.Machine.execLoadMemory x s

end Sys2Proof.Machine
end

