-- ==== Sys2Proof/Machine/Cycle.lean ====
section
/-! DEFINITION. One clock cycle of the block (R290): reset, partial clears, load port, the step of R113, tick and the
DIRTY update, on the port values of the cycle; and the block's outputs (R29). -/

namespace Sys2Proof.Machine

/-! ### The host's ports -/

/-- `clr_mem`: FONT and zeros again; the program image is erased (R283). -/
def State.clearMem (s : State) : State := { s with mem := [] }

/-- `clr_regs`: V, I and pc to their reset values (R283). -/
def State.clearRegs (s : State) : State :=
  { s with v := State.reset.v, I := State.reset.I, pc := State.reset.pc }

/-- `clr_stack`: SP and every slot to 0 (R283). -/
def State.clearStack (s : State) : State := { s with sp := State.reset.sp, stack := State.reset.stack }

/-- `clr_timers`: DT and ST to 0 (R283). -/
def State.clearTimers (s : State) : State := { s with dt := State.reset.dt, st := State.reset.st }

/-- A partial clear is asserted (R283, R284). -/
def Ports.anyClear (p : Ports) : Bool := p.clrMem || p.clrRegs || p.clrStack || p.clrTimers

/-- Every asserted partial clear applies (R283). -/
def State.applyClears (p : Ports) (s : State) : State :=
  let s := if p.clrMem then s.clearMem else s
  let s := if p.clrRegs then s.clearRegs else s
  let s := if p.clrStack then s.clearStack else s
  if p.clrTimers then s.clearTimers else s

/-- `dirty_clr` (R208). -/
def State.clearDirty (p : Ports) (s : State) : State := if p.dirtyClr then { s with dirty := false } else s

/-- The load port: `MEM[0x200 + ld_off] <- ld_data` when `ld_off < 3584`, else the write is dropped (R287). -/
def State.loadPort (p : Ports) (s : State) : State :=
  if p.ldWe && decide (p.ldOff.toNat < Config.romMax) then s.memWriteBytes (Config.progBase + p.ldOff.toNat) [p.ldData]
  else s

/-- One timer, decremented and floored at 0 (R255). -/
def decTimer (t : Byte) : Byte := if t = 0 then 0 else t - 1

/-- The timer decrementor (R255). -/
def State.tickTimers (p : Ports) (s : State) : State :=
  if p.tick then { s with dt := decTimer s.dt, st := decTimer s.st } else s

/-- The instruction this cycle's step executes: none while faulted, when `step` is low, or when decode fails (R111,
R113). -/
def State.executes (p : Ports) (s : State) : Option Instr :=
  if p.step && s.faultCode == 0 then decode s.fetchWord else none

/-- ClearDisplay and Draw, the instructions that mark the frame dirty (R32, R208). -/
def marksFrame : Instr → Bool
  | .clearDisplay => true
  | .draw _ _ _ => true
  | _ => false

/-- The DIRTY update: a set wins over `dirty_clr` (R208). `drew` says that the cycle's step executed ClearDisplay or
Draw. -/
def State.updateDirty (p : Ports) (drew : Bool) (s : State) : State :=
  if drew then { s with dirty := true } else s.clearDirty p

/-! ### The step and the cycle -/

/-- The step of R113: nothing while faulted; else fetch, decode, and InvalidInstruction or execute. -/
def runStep (s : State) : Result :=
  if s.faultCode = 0 then
    match decode s.fetchWord with
    | none => raise .invalidInstruction s.fetchWord s
    | some i => exec i s
  else .next (s.setResult .idle)

/-- The cycle is over: its port record is used up. -/
def State.endCycle (s : State) : State := { s with inputs := s.inputs.tail, cycle := s.cycle + 1 }

/-- The step when it is strobed, else nothing and `result` 0 (R113, R290). -/
def stepPhase (p : Ports) (s : State) : Result := if p.step then runStep s else .next (s.setResult .idle)

/-- What follows the step in a cycle: the tick, then the DIRTY update (R290). -/
def State.afterStep (p : Ports) (drew : Bool) (s : State) : State := ((s.tickTimers p).updateDirty p drew).endCycle

/-- An outcome with something done to its next state. -/
def mapNext (f : State → State) (o : Result) : Result :=
  match o with
  | .next s => .next (f s)
  | .fault r => .fault r
  | .refused r => .refused r

/-- One clock cycle (R290). -/
def clockCycle (p : Ports) (s : State) : Result :=
  if p.rst then .next s.fullReset.endCycle
  else if p.anyClear then .next (((s.applyClears p).clearDirty p).setResult .idle).endCycle
  else
    mapNext (State.afterStep p (((s.loadPort p).executes p).any marksFrame)) (stepPhase p (s.loadPort p))

/-! ### Outputs (R29, R290): functions of the state before the edge -/

/-- The output ports but `result`, which the cycle computes and `State.result` holds after it. -/
structure Outputs where
  fbPix : Bool
  dirty : Bool
  soundOn : Bool
  faulted : Bool
  faultCode : BitVec 3
  faultWord : Word
  faultPc : Word
deriving DecidableEq, Repr

/-- `fb_pix` (R206), `dirty`, `sound_on` (R258), `faulted` and the fault latch (R29), for the read address on the
ports. -/
def State.outputs (p : Ports) (s : State) : Outputs where
  fbPix := s.fb.pixel ⟨p.fbRy.toNat, p.fbRy.isLt⟩ ⟨p.fbRx.toNat, p.fbRx.isLt⟩
  dirty := s.dirty
  soundOn := s.st != 0
  faulted := s.faultCode != 0
  faultCode := s.faultCode
  faultWord := s.faultWord
  faultPc := s.faultPc

/-! ### Placing an instruction where the next step fetches -/

/-- A port record under which the cycle runs a step: `step` asserted, no reset, no clear, no load. -/
def Ports.running (p : Ports) : Ports :=
  { p with rst := false, clrMem := false, clrRegs := false, clrStack := false, clrTimers := false, step := true, ldWe := false }

/-- The state made ready to run a step in its next cycle: no fault latched (R113), and the oldest port record one that
runs a step. -/
def State.readyToStep (s : State) : State :=
  { s with
    faultCode := 0
    inputs := match s.inputs with
      | [] => []
      | p :: ps => p.running :: ps }

/-- A word stored where the next step fetches: high byte at pc, low byte at u16(pc + 1), each reduced by a12 (R110). -/
def State.placeWord (s : State) (w : Word) : State :=
  (s.memWriteBytes s.pc.toNat [hiByte w]).memWriteBytes (s.pc + 1).toNat [loByte w]

end Sys2Proof.Machine
end

