-- ==== Sys2Proof/Machine/Step.lean ====
section
/-! DEFINITION. One step of the machine: one clock cycle of R290, on the port values of the cycle (entries 1, 12). -/

namespace Sys2Proof.Machine

/-- One clock cycle of the block. -/
def step (s : State) : Host.Outcome State Fault Refusal := clockCycle s.ports s

/-- `s` with the instruction word `w` (numbered as the opcode table numbers it) stored where `step` fetches its next
instruction, and made ready to run it (entry 9). -/
def State.withFetchWord (s : State) (nbits w : Nat) : State := (s.placeWord (tableWord nbits w)).readyToStep

end Sys2Proof.Machine
end

