-- ==== Sys2Proof/Machine/Boot.lean ====
section
/-! DEFINITION. How a program comes to run (R285–R289): the host's boot sequence, as the port records of its cycles. -/

namespace Sys2Proof.Machine

/-- A cycle with no strobe asserted. -/
def Ports.quiet : Ports := { step := false }

/-- One cycle of full reset (R286). -/
def Ports.resetCycle : Ports := { Ports.quiet with rst := true }

/-- One cycle of the load port: byte `b` at offset `k` (R287). -/
def Ports.loadCycle (k : Nat) (b : Byte) : Ports :=
  { Ports.quiet with ldWe := true, ldOff := BitVec.ofNat 12 k, ldData := b }

/-- The load cycles of an image whose first byte goes to offset `k` (R286: byte k at `ld_off = k`). -/
def loadCycles (k : Nat) : List Byte → List Ports
  | [] => []
  | b :: bs => Ports.loadCycle k b :: loadCycles (k + 1) bs

/-- The boot sequence before the first step strobe: one reset cycle, then the image (R286). -/
def bootCycles (image : List Byte) : List Ports := Ports.resetCycle :: loadCycles 0 image

/-- The loader: it schedules the boot sequence, and refuses an image that does not fit rather than load a prefix
(R286, R288). -/
def bootWith (image : List Byte) (s : State) : Result :=
  if imageWellFormed image then .next { s with inputs := bootCycles image } else .refused .imageTooLong

end Sys2Proof.Machine
end

