-- ==== Sys2Proof/Safety.lean ====
section
/-! DEFINITION. What a safe run is: the invariant of the reachable states, and the terms statements use to say what a
step keeps, what it reads and what it writes. -/

namespace Sys2Proof.Machine

/-- The invariant: memory is in its canonical form, SP is 0..16 (R36, R37), and FAULT_CODE is one that a step writes
(R35: 5, 6 and 7 are never written; R121, R243: 4 is never raised). -/
abbrev State.Inv (s : State) : Prop := s.memWf = true ∧ s.sp.toNat ≤ 16 ∧ s.faultCode.toNat ≤ 3

/-- The block is not faulted (R246). -/
abbrev State.Running (s : State) : Prop := s.faultCode = 0

/-- No reset and no clear is asserted: the last branch of R290. -/
abbrev Ports.NoReset (p : Ports) : Prop := p.rst = false ∧ p.anyClear = false

/-- The cycle runs a step: no reset and no clear is asserted, and `step` is (R113, R290). -/
abbrev Ports.Steps (p : Ports) : Prop := p.NoReset ∧ p.step = true

/-! ### What a step keeps -/

/-- The parts of the state beside `pc` and the output `result`, which every step may write. -/
inductive Part where
  | regs | index | mem | stack | delay | sound | pixels | dirty | latch | env | font
deriving DecidableEq, Repr

/-- A part is the same in both states. Memory, registers, stack and framebuffer are compared by what reads of them
give; `env` is the model's own `inputs` and `cycle`, and `font` the parameter FONT. -/
def Part.Same : Part → State → State → Prop
  | .regs, s, t => ∀ r, t.readV r = s.readV r
  | .index, s, t => t.I = s.I
  | .mem, s, t => ∀ a, t.byteAt a = s.byteAt a
  | .stack, s, t => t.sp = s.sp ∧ ∀ k, t.readStack k = s.readStack k
  | .delay, s, t => t.dt = s.dt
  | .sound, s, t => t.st = s.st
  | .pixels, s, t => ∀ r c, t.fb.pixel r c = s.fb.pixel r c
  | .dirty, s, t => t.dirty = s.dirty
  | .latch, s, t => t.faultCode = s.faultCode ∧ t.faultWord = s.faultWord ∧ t.faultPc = s.faultPc
  | .env, s, t => t.inputs = s.inputs ∧ t.cycle = s.cycle
  | .font, s, t => t.font = s.font

/-- Every part but the named ones is the same (`pc` and `result` are not parts). -/
def SameBut (changed : List Part) (s t : State) : Prop := ∀ part, part ∉ changed → part.Same s t

/-- Every general register but the named ones reads as before. -/
def SameRegsBut (changed : RegIdx → Prop) (s t : State) : Prop := ∀ r, ¬ changed r → t.readV r = s.readV r

/-- The step ended in CONTINUE with this next pc (R14, R116). -/
def ContinuesAt (target : Nat) (t : State) : Prop := t.pc.toNat = target ∧ t.result = .continued

/-- `u16(pc + k)` (R116). -/
def pcPlus (s : State) (k : Nat) : Nat := (s.pc.toNat + k) % 65536

/-- The fault latch of a faulting step, `result` 3 and `pc` unchanged (R244). -/
def LatchesFault (code word : Nat) (s t : State) : Prop :=
  t.faultCode.toNat = code ∧ t.faultWord.toNat = word ∧ t.faultPc = s.pc ∧ t.pc = s.pc ∧ t.result = .faulted

/-! ### Who reads and writes what, as the spec's tables say -/

/-- The instructions that write VF as a flag (R23). -/
def flagWriter : Instr → Bool
  | .addXY _ _ | .subXY _ _ | .subYX _ _ | .shiftRight _ | .shiftLeft _ | .draw _ _ _ => true
  | _ => false

/-- The registers an instruction may write: R24's list of V[x] writers, and VF for the flag writers (R23). -/
def WritesReg (r : RegIdx) : Instr → Prop
  | .load x _ | .add x _ | .move x _ | .or x _ | .and x _ | .xor x _ | .random x _ | .loadDelay x
  | .waitKeyPress x => r = x
  | .addXY x _ | .subXY x _ | .subYX x _ | .shiftRight x | .shiftLeft x => r = x ∨ r = vfIdx
  | .draw _ _ _ => r = vfIdx
  | .loadMemory x => r.toNat ≤ x.toNat
  | _ => False

/-- The registers an instruction reads (R24). -/
def ReadsReg (r : RegIdx) : Instr → Prop
  | .skipEqual x _ | .skipNotEqual x _ | .add x _ | .shiftRight x | .shiftLeft x | .skipKeyPressed x
  | .skipKeyNotPressed x | .setDelay x | .setSound x | .addI x | .loadFont x | .storeBCD x => r = x
  | .skipEqualXY x y | .skipNotEqualXY x y | .or x y | .and x y | .xor x y | .addXY x y | .subXY x y | .subYX x y
  | .draw x y _ => r = x ∨ r = y
  | .move _ y => r = y
  | .storeRegisters x => r.toNat ≤ x.toNat
  | .jumpV0 _ => r = 0
  | _ => False

/-- The parts an instruction may write, beside `pc` and `result` (R27, R30, R31, R32, R36, R61; the latch when it
raises a fault, R244). -/
def mayWrite : Instr → List Part
  | .clearDisplay => [.pixels, .dirty]
  | .draw _ _ _ => [.pixels, .dirty, .regs]
  | .ret | .call _ => [.stack, .latch]
  | .jump _ | .jumpV0 _ | .skipEqual _ _ | .skipNotEqual _ _ | .skipEqualXY _ _ | .skipNotEqualXY _ _
  | .skipKeyPressed _ | .skipKeyNotPressed _ => []
  | .loadI _ | .addI _ | .loadFont _ => [.index]
  | .storeBCD _ | .storeRegisters _ => [.mem]
  | .setDelay _ => [.delay]
  | .setSound _ => [.sound]
  | .load _ _ | .add _ _ | .move _ _ | .or _ _ | .and _ _ | .xor _ _ | .addXY _ _ | .subXY _ _ | .shiftRight _
  | .subYX _ _ | .shiftLeft _ | .random _ _ | .loadDelay _ | .waitKeyPress _ | .loadMemory _ => [.regs]

/-- The instructions that read the key state (R39, R263). -/
def readsKey : Instr → Bool
  | .skipKeyPressed _ | .skipKeyNotPressed _ | .waitKeyPress _ => true
  | _ => false

/-- The next pc of R116's table for a step that does not fault, in exact arithmetic. -/
def tableNextPc (s : State) : Instr → Nat
  | .jump nnn => nnn.toNat
  | .jumpV0 nnn => (nnn.toNat + (s.readV 0).toNat) % 65536
  | .call nnn => nnn.toNat
  | .ret => (s.readStack (s.sp - 1)).toNat
  | .skipEqual x nn => if s.readV x = nn then pcPlus s 4 else pcPlus s 2
  | .skipNotEqual x nn => if s.readV x ≠ nn then pcPlus s 4 else pcPlus s 2
  | .skipEqualXY x y => if s.readV x = s.readV y then pcPlus s 4 else pcPlus s 2
  | .skipNotEqualXY x y => if s.readV x ≠ s.readV y then pcPlus s 4 else pcPlus s 2
  | .skipKeyPressed x =>
    if s.ports.keyValid = true ∧ s.ports.keyCode.toNat = (s.readV x).toNat then pcPlus s 4 else pcPlus s 2
  | .skipKeyNotPressed x =>
    if s.ports.keyValid = true ∧ s.ports.keyCode.toNat = (s.readV x).toNat then pcPlus s 2 else pcPlus s 4
  | .waitKeyPress _ => if s.ports.keyValid = true then pcPlus s 2 else s.pc.toNat
  | _ => pcPlus s 2

/-! ### Draw's set bits (R202), in exact arithmetic -/

/-- Some set bit of the sprite that a Draw of `x y n` reads in `s` lands on the pixel (r, c). -/
def SpriteCovers (s : State) (x y : RegIdx) (n : Height) (r : Fin 32) (c : Fin 64) : Prop :=
  ∃ row col, row < n.toNat ∧ col < 8 ∧
    (s.byteAt ((s.I.toNat + row) % 4096)).toNat / 2 ^ (7 - col) % 2 = 1 ∧
    r.val = ((s.readV y).toNat + row) % 32 ∧ c.val = ((s.readV x).toNat + col) % 64

/-! ### Sequences of instructions and of cycles -/

/-- Instructions executed one after another, each on the state the one before it left; none if one of them faults. -/
def execAll : List Instr → State → Option State
  | [], s => some s
  | i :: is, s =>
    match exec i s with
    | .next t => if t.result = .faulted then none else execAll is t
    | _ => none

/-- A sequence of instructions in which every Call is matched by a Return (R138). -/
inductive Balanced : List Instr → Prop where
  | nil : Balanced []
  | plain (i : Instr) (notCall : ∀ a, i ≠ .call a) (notRet : i ≠ .ret) : Balanced [i]
  | wrap (a : Addr12) (body : List Instr) (inner : Balanced body) : Balanced (.call a :: (body ++ [.ret]))
  | append (l₁ l₂ : List Instr) (first : Balanced l₁) (second : Balanced l₂) : Balanced (l₁ ++ l₂)

/-- `n` clock cycles, stopping at the first that does not answer next. -/
def runCycles : Nat → State → Result
  | 0, s => .next s
  | n + 1, s =>
    match step s with
    | .next t => runCycles n t
    | o => o

/-- The state a cycle's step works on: the load port's write is ordered before it (R71, R290). -/
abbrev State.afterLoad (s : State) : State := s.loadPort s.ports

/-- The instruction that the cycle at `s` executes, if its step executes one (R111, R113). -/
def State.Executes (s : State) (i : Instr) : Prop :=
  s.ports.Steps ∧ s.faultCode = 0 ∧ decode s.afterLoad.fetchWord = some i

/-- The cycle at `s` executes ClearDisplay or Draw (R200, R208). -/
def State.ExecutesDisplay (s : State) : Prop := s.Executes .clearDisplay ∨ ∃ x y n, s.Executes (.draw x y n)

/-- What a timer holds after the tick phase of a cycle (R255). -/
def ticked (p : Ports) (v : Nat) : Nat := if p.tick = true then v - 1 else v

/-- A cycle in which nothing but the tick is strobed: no reset, clear, load, step or `dirty_clr`. -/
abbrev Ports.OnlyTicks (p : Ports) : Prop :=
  p.NoReset ∧ p.step = false ∧ p.ldWe = false ∧ p.dirtyClr = false ∧ p.tick = true

end Sys2Proof.Machine
end

