-- ==== Sys2Proof/Certificates/Slice0/Obligations.lean ====
section
/-! DEFINITION. The statements for the provers, each from the rules of spec/ its docstring names. `exec i s` is the
instruction's own effect; `step s` is one clock cycle. -/

open Sys2Proof Sys2Proof.Machine

/-! ### Encoding -/

/-- Every instruction, with every operand value, is decoded from its own encoding, and from its two bytes in memory
order with any bytes after them (R63, R81, R92). -/
def Obligations.DecodeOfEncodeIsTheInstruction : Prop :=
  ∀ (i : Instr) (rest : List Byte),
    decode (encode i) = some i ∧ decodeBytes (encodeBytes i ++ rest) = some (i, rest)

/-- R93: all 16 values of y select the same shift, and no other field of any instruction is ignored: the word an
instruction is decoded from is its encoding, but for the y nibble of a shift. -/
def Obligations.OnlyTheShiftsIgnoreTheirYField : Prop :=
  (∀ x y : RegIdx, decode (0x8#4 ++ x ++ y ++ 0x6#4) = some (.shiftRight x) ∧
    decode (0x8#4 ++ x ++ y ++ 0xE#4) = some (.shiftLeft x)) ∧
  ∀ (w : Word) (i : Instr), decode w = some i →
    ((∃ x, i = .shiftRight x ∨ i = .shiftLeft x) → encode i = w &&& 0xFF0F) ∧
    ((∀ x, i ≠ .shiftRight x ∧ i ≠ .shiftLeft x) → encode i = w)

/-- R94: every word matches at most one row of the opcode map; and the decoder takes exactly the words that match one,
each to an instruction of that row (R92, R97). -/
def Obligations.RowsAreDisjointAndDecodeFollowsThem : Prop :=
  (∀ (w : Word) (r₁ r₂ : OpcodeRow), r₁ ∈ opcodeRows → r₂ ∈ opcodeRows →
    w &&& r₁.mask = r₁.code → w &&& r₂.mask = r₂.code → r₁ = r₂) ∧
  (∀ w : Word, decode w = none ↔ ∀ r ∈ opcodeRows, w &&& r.mask ≠ r.code) ∧
  ∀ (w : Word) (i : Instr), decode w = some i → i.row ∈ opcodeRows ∧ w &&& i.row.mask = i.row.code

/-- A sanity statement: words written out from the spec's encodings (R92, R98), one or more of every family, are the
instructions they stand for. -/
def Obligations.SampleWordsAreDecodedRight : Prop :=
  decode 0x00E0 = some .clearDisplay ∧ decode 0x00EE = some .ret ∧ decode 0x1208 = some (.jump 0x208) ∧
  decode 0x3105 = some (.skipEqual 1 0x05) ∧ decode 0x9120 = some (.skipNotEqualXY 1 2) ∧
  decode 0x8124 = some (.addXY 1 2) ∧ decode 0x84A6 = some (.shiftRight 4) ∧ decode 0xA300 = some (.loadI 0x300) ∧
  decode 0xD015 = some (.draw 0 1 5) ∧ decode 0xE5A1 = some (.skipKeyNotPressed 5) ∧
  decode 0xF733 = some (.storeBCD 7) ∧ decode 0x5001 = none

/-! ### Fetch, the step and the cycle -/

/-- R63, R110: the instruction word is big-endian, its bytes at `a12(pc)` and `a12(u16(pc + 1))`. -/
def Obligations.FetchIsBigEndianAndWraps : Prop :=
  ∀ s : State, s.fetchWord.toNat =
    (s.byteAt (s.pc.toNat % 4096)).toNat * 256 + (s.byteAt ((s.pc.toNat + 1) % 65536 % 4096)).toNat

/-- The cycle runs the decoded instruction (R111–R113, R290): when the step is strobed, no reset or clear is asserted and
no fault is latched, and the bytes at pc (after the load port's write) decode to `i`, the cycle is `exec i` and then,
on what it leaves, the tick (R255) and the DIRTY update (R208); nothing else is added but the model's own schedule:
`inputs` and `cycle` (DESIGN CHOICE, entries 1 and 2). -/
def Obligations.StepRunsTheDecodedInstruction : Prop :=
  ∀ (s : State) (i : Instr) (t : State), s.ports.Steps → s.faultCode = 0 →
    decode s.afterLoad.fetchWord = some i → exec i s.afterLoad = .next t →
    ∃ u, step s = .next u ∧
      (u.mem = t.mem ∧ u.v = t.v ∧ u.I = t.I ∧ u.pc = t.pc ∧ u.stack = t.stack ∧ u.sp = t.sp ∧ u.fb = t.fb ∧
        u.font = t.font) ∧
      (u.faultCode = t.faultCode ∧ u.faultWord = t.faultWord ∧ u.faultPc = t.faultPc ∧ u.result = t.result) ∧
      u.dt.toNat = ticked s.ports t.dt.toNat ∧ u.st.toNat = ticked s.ports t.st.toNat ∧
      u.dirty = (if i = .clearDisplay ∨ (∃ x y n, i = .draw x y n) then true
        else if s.ports.dirtyClr = true then false else t.dirty) ∧
      u.inputs = s.inputs.tail ∧ u.cycle = s.cycle + 1

/-- A word placed by the model's `withFetchWord` where the machine fetches is the instruction the very next cycle runs
(the model's own device, entry 9). -/
def Obligations.APlacedWordIsRunNext : Prop :=
  ∀ (s : State) (w : Word) (i : Instr) (t : State), s.memWf = true → decode w = some i →
    exec i (s.withFetchWord 16 w.toNat) = .next t →
    decodeTableWord 16 w.toNat = some i ∧
    ∃ u, step (s.withFetchWord 16 w.toNat) = .next u ∧ u.mem = t.mem ∧ u.v = t.v ∧ u.I = t.I ∧ u.pc = t.pc ∧
      u.sp = t.sp ∧ u.fb = t.fb ∧ u.faultCode = t.faultCode ∧ u.result = t.result

/-- R14: a step of a block without a fault ends in exactly one of CONTINUE, WAIT and FAULT; WAIT is WaitKeyPress with no
key, and leaves the state and pc. -/
def Obligations.AStepContinuesWaitsOrFaults : Prop :=
  ∀ s : State, s.faultCode = 0 → ∃ t, runStep s = .next t ∧
    (t.result = .continued ∨ t.result = .waiting ∨ t.result = .faulted) ∧
    (t.result = .waiting ↔ (∃ x, decode s.fetchWord = some (.waitKeyPress x)) ∧ s.ports.keyValid = false) ∧
    (t.result = .waiting → SameBut [] s t ∧ t.pc = s.pc)

/-- Every cycle answers a next state, whatever the state and the ports: the model never faults and never refuses (R113,
R290); its port record is used up and its cycle counted (the model's own fields, DESIGN CHOICE, entries 1 and 2); and the
fault code 4 is never raised (R121, R243). -/
def Obligations.EveryCycleAnswersNext : Prop :=
  ∀ s : State, ∃ t, step s = .next t ∧ t.inputs = s.inputs.tail ∧ t.cycle = s.cycle + 1 ∧
    (s.faultCode ≠ 4 → t.faultCode ≠ 4)

/-- R116: the value of pc after an instruction, by instruction; a step that ends in FAULT leaves pc. -/
def Obligations.NextPcFollowsTheTable : Prop :=
  (∀ (i : Instr) (s t : State), exec i s = .next t →
    (t.result ≠ .faulted → t.pc.toNat = tableNextPc s i) ∧ (t.result = .faulted → t.pc = s.pc)) ∧
  ∀ s t : State, s.faultCode = 0 → runStep s = .next t → t.result = .faulted → t.pc = s.pc

/-! ### Control flow -/

/-- R131, R132: Jump and JumpV0 set pc to the address, or the address plus V0 as a 16-bit add, and change nothing
else. -/
def Obligations.JumpsSetPcAndNothingElse : Prop :=
  ∀ (nnn : Addr12) (s : State),
    (decode (0x1#4 ++ nnn) = some (.jump nnn) ∧
      ∃ t, exec (.jump nnn) s = .next t ∧ ContinuesAt nnn.toNat t ∧ SameBut [] s t) ∧
    (decode (0xB#4 ++ nnn) = some (.jumpV0 nnn) ∧
      ∃ t, exec (.jumpV0 nnn) s = .next t ∧ ContinuesAt ((nnn.toNat + (s.readV 0).toNat) % 65536) t ∧ SameBut [] s t)

/-- R133, R242: Call pushes `u16(pc + 2)` and goes to the address; with 16 entries held it raises StackOverflow with
the word 0x2NNN, and nothing but the latch changes. -/
def Obligations.CallPushesOrOverflows : Prop :=
  ∀ (nnn : Addr12) (s : State), decode (0x2#4 ++ nnn) = some (.call nnn) ∧
    (s.sp.toNat < 16 → ∃ t, exec (.call nnn) s = .next t ∧ ContinuesAt nnn.toNat t ∧
      t.sp.toNat = s.sp.toNat + 1 ∧ (t.readStack s.sp).toNat = pcPlus s 2 ∧
      (∀ k : BitVec 5, k.toNat < 16 → k ≠ s.sp → t.readStack k = s.readStack k) ∧ SameBut [.stack] s t) ∧
    (s.sp.toNat = 16 → ∃ t, exec (.call nnn) s = .next t ∧ LatchesFault 3 (0x2000 + nnn.toNat) s t ∧
      SameBut [.latch] s t)

/-- R130, R241: Return pops the slot below SP into pc, as it is, and the slot keeps its value; with an empty stack it
raises StackUnderflow with the word 0x00EE, and nothing but the latch changes. -/
def Obligations.ReturnPopsOrUnderflows : Prop :=
  ∀ s : State, decode 0x00EE = some .ret ∧
    (0 < s.sp.toNat → s.sp.toNat ≤ 16 → ∃ t, exec .ret s = .next t ∧ t.sp.toNat = s.sp.toNat - 1 ∧
      ContinuesAt (s.readStack (BitVec.ofNat 5 (s.sp.toNat - 1))).toNat t ∧
      (∀ k, t.readStack k = s.readStack k) ∧ SameBut [.stack] s t) ∧
    (s.sp.toNat = 0 → ∃ t, exec .ret s = .next t ∧ LatchesFault 2 0x00EE s t ∧ SameBut [.latch] s t)

/-- R138: a Call, any instructions in which every Call is matched by its Return, and a Return go to the instruction
after the Call; from SP = 0, 16 Calls succeed and the 17th raises StackOverflow; a Return at SP = 0 raises
StackUnderflow. -/
def Obligations.CallsAndReturnsMatch : Prop :=
  (∀ (a : Addr12) (body : List Instr) (s t : State), Balanced body → s.sp.toNat ≤ 16 →
    execAll (.call a :: (body ++ [.ret])) s = some t → t.pc.toNat = pcPlus s 2 ∧ t.sp = s.sp) ∧
  (∀ (targets : List Addr12) (s : State), s.sp = 0 → targets.length = 16 →
    ∃ t, execAll (targets.map .call) s = some t ∧ t.sp = 16 ∧
      ∀ a, ∃ u, exec (.call a) t = .next u ∧ LatchesFault 3 (0x2000 + a.toNat) t u) ∧
  ∀ s : State, s.sp = 0 → ∃ u, exec .ret s = .next u ∧ LatchesFault 2 0x00EE s u

/-- R134–R137: each register skip compares and goes to `u16(pc + 4)` or `u16(pc + 2)`, and changes nothing else. -/
def Obligations.RegisterSkipsCompareAndSkip : Prop :=
  ∀ (x y : RegIdx) (nn : Byte) (s : State),
    (decode (0x3#4 ++ x ++ nn) = some (.skipEqual x nn) ∧
      ∃ t, exec (.skipEqual x nn) s = .next t ∧ SameBut [] s t ∧
      ContinuesAt (pcPlus s (if (s.readV x).toNat = nn.toNat then 4 else 2)) t) ∧
    (decode (0x4#4 ++ x ++ nn) = some (.skipNotEqual x nn) ∧
      ∃ t, exec (.skipNotEqual x nn) s = .next t ∧ SameBut [] s t ∧
      ContinuesAt (pcPlus s (if (s.readV x).toNat = nn.toNat then 2 else 4)) t) ∧
    ((∀ n : Height, decode (0x5#4 ++ x ++ y ++ n) = if n = 0 then some (.skipEqualXY x y) else none) ∧
      ∃ t, exec (.skipEqualXY x y) s = .next t ∧ SameBut [] s t ∧
      ContinuesAt (pcPlus s (if (s.readV x).toNat = (s.readV y).toNat then 4 else 2)) t) ∧
    ((∀ n : Height, decode (0x9#4 ++ x ++ y ++ n) = if n = 0 then some (.skipNotEqualXY x y) else none) ∧
      ∃ t, exec (.skipNotEqualXY x y) s = .next t ∧ SameBut [] s t ∧
      ContinuesAt (pcPlus s (if (s.readV x).toNat = (s.readV y).toNat then 2 else 4)) t)

/-! ### ALU -/

/-- R151–R153: Load, Add and Move write V[x] (VF like any register) and no other register; Add wraps and touches no
flag. -/
def Obligations.LoadAddAndMoveWriteOneRegister : Prop :=
  ∀ (x y : RegIdx) (nn : Byte) (s : State),
    (decode (0x6#4 ++ x ++ nn) = some (.load x nn) ∧
      ∃ t, exec (.load x nn) s = .next t ∧ (t.readV x).toNat = nn.toNat ∧
      SameRegsBut (· = x) s t ∧ SameBut [.regs] s t ∧ ContinuesAt (pcPlus s 2) t) ∧
    (decode (0x7#4 ++ x ++ nn) = some (.add x nn) ∧
      ∃ t, exec (.add x nn) s = .next t ∧ (t.readV x).toNat = ((s.readV x).toNat + nn.toNat) % 256 ∧
      SameRegsBut (· = x) s t ∧ SameBut [.regs] s t ∧ ContinuesAt (pcPlus s 2) t) ∧
    (decode (0x8#4 ++ x ++ y ++ 0x0#4) = some (.move x y) ∧
      ∃ t, exec (.move x y) s = .next t ∧ (t.readV x).toNat = (s.readV y).toNat ∧
      SameRegsBut (· = x) s t ∧ SameBut [.regs] s t ∧ ContinuesAt (pcPlus s 2) t)

/-- R154–R156: Or, And and Xor, bit by bit; VF is not reset. -/
def Obligations.BitwiseInstructionsWorkBitByBit : Prop :=
  ∀ (x y : RegIdx) (s : State),
    (decode (0x8#4 ++ x ++ y ++ 0x1#4) = some (.or x y) ∧
      ∃ t, exec (.or x y) s = .next t ∧
      (∀ k, (t.readV x).getLsbD k = ((s.readV x).getLsbD k || (s.readV y).getLsbD k)) ∧
      SameRegsBut (· = x) s t ∧ SameBut [.regs] s t ∧ ContinuesAt (pcPlus s 2) t) ∧
    (decode (0x8#4 ++ x ++ y ++ 0x2#4) = some (.and x y) ∧
      ∃ t, exec (.and x y) s = .next t ∧
      (∀ k, (t.readV x).getLsbD k = ((s.readV x).getLsbD k && (s.readV y).getLsbD k)) ∧
      SameRegsBut (· = x) s t ∧ SameBut [.regs] s t ∧ ContinuesAt (pcPlus s 2) t) ∧
    (decode (0x8#4 ++ x ++ y ++ 0x3#4) = some (.xor x y) ∧
      ∃ t, exec (.xor x y) s = .next t ∧
      (∀ k, (t.readV x).getLsbD k = Bool.xor ((s.readV x).getLsbD k) ((s.readV y).getLsbD k)) ∧
      SameRegsBut (· = x) s t ∧ SameBut [.regs] s t ∧ ContinuesAt (pcPlus s 2) t)

/-- R157: AddXY gives the sum modulo 256 and VF = 1 iff the exact sum exceeds 255; with x = 0xF, VF ends as the carry
(R118). -/
def Obligations.AddXYGivesSumAndCarry : Prop :=
  ∀ (x y : RegIdx) (s : State), decode (0x8#4 ++ x ++ y ++ 0x4#4) = some (.addXY x y) ∧
    ∃ t, exec (.addXY x y) s = .next t ∧
    (x ≠ 0xF → (t.readV x).toNat = ((s.readV x).toNat + (s.readV y).toNat) % 256) ∧
    (t.readV 0xF).toNat = (if 255 < (s.readV x).toNat + (s.readV y).toNat then 1 else 0) ∧
    SameRegsBut (fun r => r = x ∨ r = 0xF) s t ∧ SameBut [.regs] s t ∧ ContinuesAt (pcPlus s 2) t

/-- R158, R159: SubXY and SubYX give the difference modulo 256 and VF = 1 iff no borrow occurred. -/
def Obligations.SubtractionsGiveDifferenceAndNotBorrow : Prop :=
  ∀ (x y : RegIdx) (s : State),
    (decode (0x8#4 ++ x ++ y ++ 0x5#4) = some (.subXY x y) ∧
      ∃ t, exec (.subXY x y) s = .next t ∧
      (x ≠ 0xF → (t.readV x).toNat = ((s.readV x).toNat + 256 - (s.readV y).toNat) % 256) ∧
      (t.readV 0xF).toNat = (if (s.readV y).toNat ≤ (s.readV x).toNat then 1 else 0) ∧
      SameRegsBut (fun r => r = x ∨ r = 0xF) s t ∧ SameBut [.regs] s t ∧ ContinuesAt (pcPlus s 2) t) ∧
    (decode (0x8#4 ++ x ++ y ++ 0x7#4) = some (.subYX x y) ∧
      ∃ t, exec (.subYX x y) s = .next t ∧
      (x ≠ 0xF → (t.readV x).toNat = ((s.readV y).toNat + 256 - (s.readV x).toNat) % 256) ∧
      (t.readV 0xF).toNat = (if (s.readV x).toNat ≤ (s.readV y).toNat then 1 else 0) ∧
      SameRegsBut (fun r => r = x ∨ r = 0xF) s t ∧ SameBut [.regs] s t ∧ ContinuesAt (pcPlus s 2) t)

/-- R160, R161: the shifts move V[x] by one bit, and VF is the bit shifted out of the value before the shift; with
x = 0xF, VF ends as that bit. -/
def Obligations.ShiftsGiveResultAndBitShiftedOut : Prop :=
  ∀ (x : RegIdx) (s : State),
    ((∀ y : RegIdx, decode (0x8#4 ++ x ++ y ++ 0x6#4) = some (.shiftRight x)) ∧
      ∃ t, exec (.shiftRight x) s = .next t ∧ (x ≠ 0xF → (t.readV x).toNat = (s.readV x).toNat / 2) ∧
      (t.readV 0xF).toNat = (s.readV x).toNat % 2 ∧
      SameRegsBut (fun r => r = x ∨ r = 0xF) s t ∧ SameBut [.regs] s t ∧ ContinuesAt (pcPlus s 2) t) ∧
    ((∀ y : RegIdx, decode (0x8#4 ++ x ++ y ++ 0xE#4) = some (.shiftLeft x)) ∧
      ∃ t, exec (.shiftLeft x) s = .next t ∧ (x ≠ 0xF → (t.readV x).toNat = (s.readV x).toNat * 2 % 256) ∧
      (t.readV 0xF).toNat = (s.readV x).toNat / 128 ∧
      SameRegsBut (fun r => r = x ∨ r = 0xF) s t ∧ SameBut [.regs] s t ∧ ContinuesAt (pcPlus s 2) t)

/-- R162: Random writes `rnd & nn`, for every value of the cycle's random byte (`s.ports.rnd`, scheduled or free); no
flag. -/
def Obligations.RandomMasksThePortsByte : Prop :=
  ∀ (x : RegIdx) (nn : Byte) (s : State), decode (0xC#4 ++ x ++ nn) = some (.random x nn) ∧
    ∃ t, exec (.random x nn) s = .next t ∧
    (∀ k, (t.readV x).getLsbD k = (s.ports.rnd.getLsbD k && nn.getLsbD k)) ∧
    SameRegsBut (· = x) s t ∧ SameBut [.regs] s t ∧ ContinuesAt (pcPlus s 2) t

/-! ### Index register and memory -/

/-- R180–R182: LoadI, AddI and LoadFont write I, all 16 bits, and nothing else; no flag. -/
def Obligations.IndexInstructionsWriteI : Prop :=
  ∀ (x : RegIdx) (nnn : Addr12) (s : State),
    (decode (0xA#4 ++ nnn) = some (.loadI nnn) ∧
      ∃ t, exec (.loadI nnn) s = .next t ∧ t.I.toNat = nnn.toNat ∧
      SameBut [.index] s t ∧ ContinuesAt (pcPlus s 2) t) ∧
    (decode (0xF#4 ++ x ++ 0x1E#8) = some (.addI x) ∧
      ∃ t, exec (.addI x) s = .next t ∧ t.I.toNat = (s.I.toNat + (s.readV x).toNat) % 65536 ∧
      SameBut [.index] s t ∧ ContinuesAt (pcPlus s 2) t) ∧
    (decode (0xF#4 ++ x ++ 0x29#8) = some (.loadFont x) ∧
      ∃ t, exec (.loadFont x) s = .next t ∧ t.I.toNat = (s.readV x).toNat * 5 ∧
      SameBut [.index] s t ∧ ContinuesAt (pcPlus s 2) t)

/-- R183: StoreBCD stores the hundreds, tens and ones of V[x] at I, I+1, I+2, each address reduced modulo 4096; every
other byte, I and the registers are kept. -/
def Obligations.StoreBCDStoresThreeDigits : Prop :=
  ∀ (x : RegIdx) (s : State), decode (0xF#4 ++ x ++ 0x33#8) = some (.storeBCD x) ∧
    (s.memWf = true → ∃ t, exec (.storeBCD x) s = .next t ∧
    (t.byteAt (a12 (s.dataAddr 0))).toNat = (s.readV x).toNat / 100 ∧
    (t.byteAt (a12 (s.dataAddr 1))).toNat = (s.readV x).toNat / 10 % 10 ∧
    (t.byteAt (a12 (s.dataAddr 2))).toNat = (s.readV x).toNat % 10 ∧
    (∀ a, (∀ k, k < 3 → a ≠ a12 (s.dataAddr k)) → t.byteAt a = s.byteAt a) ∧
    SameBut [.mem] s t ∧ ContinuesAt (pcPlus s 2) t)

/-- R184: StoreRegisters stores V[0]..V[x] at I..I+x, each address reduced modulo 4096; every other byte and I are
kept. -/
def Obligations.StoreRegistersStoresABlock : Prop :=
  ∀ (x : RegIdx) (s : State), decode (0xF#4 ++ x ++ 0x55#8) = some (.storeRegisters x) ∧
    (s.memWf = true → ∃ t, exec (.storeRegisters x) s = .next t ∧
    (∀ r : RegIdx, r.toNat ≤ x.toNat → t.byteAt (a12 (s.dataAddr r.toNat)) = s.readV r) ∧
    (∀ a, (∀ k, k ≤ x.toNat → a ≠ a12 (s.dataAddr k)) → t.byteAt a = s.byteAt a) ∧
    SameBut [.mem] s t ∧ ContinuesAt (pcPlus s 2) t)

/-- R185: LoadMemory loads V[0]..V[x] from I..I+x; the registers above x, memory and I are kept. -/
def Obligations.LoadMemoryLoadsABlock : Prop :=
  ∀ (x : RegIdx) (s : State), decode (0xF#4 ++ x ++ 0x65#8) = some (.loadMemory x) ∧
    ∃ t, exec (.loadMemory x) s = .next t ∧
    (∀ r : RegIdx, r.toNat ≤ x.toNat → t.readV r = s.byteAt ((s.I.toNat + r.toNat) % 4096)) ∧
    SameRegsBut (fun r => r.toNat ≤ x.toNat) s t ∧ SameBut [.regs] s t ∧ ContinuesAt (pcPlus s 2) t

/-- R73: a byte stored where the next instruction stands is what the next step fetches: self-modifying code works. -/
def Obligations.AStoreIsSeenByTheNextFetch : Prop :=
  ∀ (x r : RegIdx) (s t : State), s.memWf = true → exec (.storeRegisters x) s = .next t → r.toNat ≤ x.toNat →
    (a12 (s.dataAddr r.toNat) = a12 (pcPlus s 2) → hiByte t.fetchWord = s.readV r) ∧
    (a12 (s.dataAddr r.toNat) = a12 (pcPlus s 3) → loByte t.fetchWord = s.readV r)

/-! ### Display -/

/-- R201: ClearDisplay turns every pixel off and marks the frame dirty, even when nothing changes. -/
def Obligations.ClearDisplayBlanksTheFrame : Prop :=
  ∀ s : State, decode 0x00E0 = some .clearDisplay ∧ ∃ t, exec .clearDisplay s = .next t ∧
    (∀ r c, t.fb.pixel r c = false) ∧ t.dirty = true ∧
    SameBut [.pixels, .dirty] s t ∧ ContinuesAt (pcPlus s 2) t

/-- R202: Draw inverts exactly the pixels a set sprite bit lands on (each once, with wraparound), sets DIRTY, and
VF = 1 iff one of them was on; memory, I and the other registers are kept. -/
def Obligations.DrawInvertsCoveredPixelsAndReportsCollision : Prop :=
  ∀ (x y : RegIdx) (n : Height) (s : State), decode (0xD#4 ++ x ++ y ++ n) = some (.draw x y n) ∧
    ∃ t, exec (.draw x y n) s = .next t ∧
    (∀ r c, (SpriteCovers s x y n r c → t.fb.pixel r c = !s.fb.pixel r c) ∧
      (¬ SpriteCovers s x y n r c → t.fb.pixel r c = s.fb.pixel r c)) ∧
    ((∃ r c, SpriteCovers s x y n r c ∧ s.fb.pixel r c = true) → (t.readV 0xF).toNat = 1) ∧
    ((∀ r c, SpriteCovers s x y n r c → s.fb.pixel r c = false) → (t.readV 0xF).toNat = 0) ∧
    t.dirty = true ∧ SameRegsBut (· = 0xF) s t ∧ SameBut [.pixels, .dirty, .regs] s t ∧ ContinuesAt (pcPlus s 2) t

/-- R204: two successive Draws of the same sprite at the same place (vx and vy are the same at both) restore FB; the
second VF is 1 iff a set bit lands on a pixel that was off before the first Draw. -/
def Obligations.DrawingTwiceRestoresTheFrame : Prop :=
  ∀ (x y : RegIdx) (n : Height) (s t u : State),
    exec (.draw x y n) s = .next t → t.readV x = s.readV x → t.readV y = s.readV y → exec (.draw x y n) t = .next u →
    u.fb = s.fb ∧
    ((u.readV 0xF).toNat = 1 ↔ ∃ r c, SpriteCovers s x y n r c ∧ s.fb.pixel r c = false) ∧ (u.readV 0xF).toNat ≤ 1

/-- R200: a pixel changes in a cycle only by ClearDisplay, Draw or full reset. -/
def Obligations.OnlyClearDrawAndResetChangePixels : Prop :=
  ∀ (s t : State) (r : Fin 32) (c : Fin 64), step s = .next t → t.fb.pixel r c ≠ s.fb.pixel r c →
    s.ports.rst = true ∨ s.ExecutesDisplay

/-- R208: in a cycle without reset or clear, DIRTY is set when the step executes ClearDisplay or Draw, else cleared by
`dirty_clr`, else kept. -/
def Obligations.DirtyIsSetByDrawingBeforeItIsCleared : Prop :=
  ∀ s t : State, s.ports.NoReset → step s = .next t →
    (s.ExecutesDisplay → t.dirty = true) ∧
    (¬ s.ExecutesDisplay → s.ports.dirtyClr = true → t.dirty = false) ∧
    (¬ s.ExecutesDisplay → s.ports.dirtyClr = false → t.dirty = s.dirty)

/-! ### Keys and timers -/

/-- R220, R221: the key skips compare V[x] with the one pressed key; with no key, or V[x] above 0xF, there is no match;
the two always go opposite ways. -/
def Obligations.KeySkipsGoOppositeWays : Prop :=
  ∀ (x : RegIdx) (s : State),
    (decode (0xE#4 ++ x ++ 0x9E#8) = some (.skipKeyPressed x) ∧
      ∃ t, exec (.skipKeyPressed x) s = .next t ∧ SameBut [] s t ∧
      ContinuesAt (pcPlus s (if s.ports.keyValid = true ∧ s.ports.keyCode.toNat = (s.readV x).toNat then 4 else 2)) t) ∧
    (decode (0xE#4 ++ x ++ 0xA1#8) = some (.skipKeyNotPressed x) ∧
      ∃ t, exec (.skipKeyNotPressed x) s = .next t ∧ SameBut [] s t ∧
      ContinuesAt (pcPlus s (if s.ports.keyValid = true ∧ s.ports.keyCode.toNat = (s.readV x).toNat then 2 else 4)) t)

/-- R222, R224, R225: LoadDelay reads DT as it stands; SetDelay and SetSound write DT and ST. -/
def Obligations.TimerInstructionsMoveTheTimers : Prop :=
  ∀ (x : RegIdx) (s : State),
    (decode (0xF#4 ++ x ++ 0x07#8) = some (.loadDelay x) ∧
      ∃ t, exec (.loadDelay x) s = .next t ∧ t.readV x = s.dt ∧ SameRegsBut (· = x) s t ∧ SameBut [.regs] s t ∧
      ContinuesAt (pcPlus s 2) t) ∧
    (decode (0xF#4 ++ x ++ 0x15#8) = some (.setDelay x) ∧
      ∃ t, exec (.setDelay x) s = .next t ∧ t.dt = s.readV x ∧ SameBut [.delay] s t ∧ ContinuesAt (pcPlus s 2) t) ∧
    (decode (0xF#4 ++ x ++ 0x18#8) = some (.setSound x) ∧
      ∃ t, exec (.setSound x) s = .next t ∧ t.st = s.readV x ∧ SameBut [.sound] s t ∧ ContinuesAt (pcPlus s 2) t)

/-- R223: WaitKeyPress with a key pressed stores its code and goes on; with none it waits, and nothing changes. -/
def Obligations.WaitKeyPressStoresTheKeyOrWaits : Prop :=
  ∀ (x : RegIdx) (s : State), decode (0xF#4 ++ x ++ 0x0A#8) = some (.waitKeyPress x) ∧
    (s.ports.keyValid = true → ∃ t, exec (.waitKeyPress x) s = .next t ∧
      (t.readV x).toNat = s.ports.keyCode.toNat ∧ SameRegsBut (· = x) s t ∧ SameBut [.regs] s t ∧
      ContinuesAt (pcPlus s 2) t) ∧
    (s.ports.keyValid = false → ∃ t, exec (.waitKeyPress x) s = .next t ∧ SameBut [] s t ∧ t.pc = s.pc ∧
      t.result = .waiting)

/-- R120: a cycle that waits for a key leaves all state, so the next step fetches the same word. -/
def Obligations.AWaitingCycleIsRefetched : Prop :=
  ∀ (x : RegIdx) (s : State), s.Executes (.waitKeyPress x) → s.ports.keyValid = false → s.ports.tick = false →
    s.ports.dirtyClr = false → s.ports.ldWe = false →
    ∃ t, step s = .next t ∧ t.result = .waiting ∧ t.pc = s.pc ∧ t.fetchWord = s.fetchWord ∧ SameBut [.env] s t

/-- R255–R257: in a cycle without reset or clear, whether a step runs, waits or faults, or the block is faulted, each
timer that the step does not set is decremented by one when the tick is strobed, floored at 0, and is kept
otherwise. -/
def Obligations.OnlyTheTickDecrementsTheTimers : Prop :=
  ∀ s t : State, s.ports.NoReset → step s = .next t →
    ((∀ x, ¬ s.Executes (.setDelay x)) → t.dt.toNat = ticked s.ports s.dt.toNat) ∧
    ((∀ x, ¬ s.Executes (.setSound x)) → t.st.toNat = ticked s.ports s.st.toNat)

/-- R259: in one cycle the tick applies to what the step leaves: LoadDelay reads the value before it, and a timer set
to v ends the cycle at v − 1 (0 when v is 0). -/
def Obligations.TheTickFollowsTheStepOfItsCycle : Prop :=
  ∀ (x : RegIdx) (s : State), s.ports.tick = true →
    (∀ i t, s.Executes i → exec i s.afterLoad = .next t →
      ∃ u, step s = .next u ∧ u.dt.toNat = t.dt.toNat - 1 ∧ u.st.toNat = t.st.toNat - 1) ∧
    (s.Executes (.loadDelay x) → ∃ t, step s = .next t ∧ t.readV x = s.dt ∧ t.dt.toNat = s.dt.toNat - 1) ∧
    (s.Executes (.setDelay x) → ∃ t, step s = .next t ∧ t.dt.toNat = (s.readV x).toNat - 1) ∧
    (s.Executes (.setSound x) → ∃ t, step s = .next t ∧ t.st.toNat = (s.readV x).toNat - 1)

/-- Over any number of cycles in which only the tick is strobed, each timer falls by that number, stays at 0, and
nothing else changes (from R255 and R290; R260 is the case of five cycles). The cycles' ports stand in the model's own
schedule `inputs`, whose use (`t.inputs = rest`) is the model's choice (DESIGN CHOICE, entry 1). -/
def Obligations.TimersDecayToZeroAndStay : Prop :=
  ∀ (ps rest : List Ports) (s : State), s.inputs = ps ++ rest → (∀ p ∈ ps, p.OnlyTicks) →
    ∃ t, runCycles ps.length s = .next t ∧ t.dt.toNat = s.dt.toNat - ps.length ∧
      t.st.toNat = s.st.toNat - ps.length ∧ t.pc = s.pc ∧ t.inputs = rest ∧ SameBut [.delay, .sound, .env] s t

/-- R258: `sound_on` is 1 exactly when ST is not 0; R206: `fb_pix` is the pixel the read address names; the other
outputs are the state's (R29). -/
def Obligations.OutputsShowTheState : Prop :=
  ∀ (p : Ports) (s : State),
    ((s.outputs p).soundOn = true ↔ s.st.toNat ≠ 0) ∧ ((s.outputs p).faulted = true ↔ s.faultCode.toNat ≠ 0) ∧
    (∀ r c, p.fbRy.toNat = r.val → p.fbRx.toNat = c.val → (s.outputs p).fbPix = s.fb.pixel r c) ∧
    (s.outputs p).dirty = s.dirty ∧ (s.outputs p).faultCode = s.faultCode ∧
    (s.outputs p).faultWord = s.faultWord ∧ (s.outputs p).faultPc = s.faultPc

/-! ### Whole-machine rules -/

/-- R23: only the six flag writers write VF as a flag (0 or 1); no other instruction changes VF unless it writes V[x]
with x = 0xF; and no instruction writes a register that R24's list does not give it. -/
def Obligations.OnlyFlagWritersAndNamedRegistersWriteVF : Prop :=
  ∀ (i : Instr) (s t : State), exec i s = .next t →
    (∀ r, ¬ WritesReg r i → t.readV r = s.readV r) ∧ (flagWriter i = true → (t.readV 0xF).toNat ≤ 1)

/-- R24: an instruction reads no register that the list does not give it: another value there changes neither where the
step goes nor anything it writes, in the registers or elsewhere. -/
def Obligations.RegistersNotReadDoNotMatter : Prop :=
  ∀ (i : Instr) (r : RegIdx) (b : Byte) (s t : State), ¬ ReadsReg r i → exec i s = .next t →
    ∃ t', exec i (s.writeV r b) = .next t' ∧ (∀ q, q ≠ r → t'.readV q = t.readV q) ∧
      (WritesReg r i → t.result = .continued → t'.readV r = t.readV r) ∧
      t'.pc = t.pc ∧ t'.result = t.result ∧ SameBut [.regs] t t'

/-- The parts of the state each instruction may write, and no other (R27 for I, R30 for the timers, R31 and R32 for the
framebuffer and DIRTY, R36 for the stack and the latch, R61 for memory). -/
def Obligations.InstructionsWriteOnlyTheirParts : Prop :=
  ∀ (i : Instr) (s t : State), exec i s = .next t → SameBut (mayWrite i) s t

/-- R119: the port values of other cycles do not affect a cycle. The schedule `inputs` that holds them is the model's own
(DESIGN CHOICE, entry 1). -/
def Obligations.PortsOfOtherCyclesDoNotMatter : Prop :=
  ∀ (p : Ports) (rest rest' : List Ports) (s t : State), s.inputs = p :: rest → step s = .next t →
    step { s with inputs := p :: rest' } = .next { t with inputs := rest' }

/-- R263, R264: only the three key instructions depend on the key ports, and only Random on the random byte; no
instruction depends on any other port. The schedule `inputs` that holds them is the model's own (DESIGN CHOICE,
entry 1). -/
def Obligations.OnlyKeyAndRandomInstructionsReadPorts : Prop :=
  ∀ (i : Instr) (p q : Ports) (rest : List Ports) (s t : State), s.inputs = p :: rest →
    (readsKey i = true → q.keyValid = p.keyValid ∧ q.keyCode = p.keyCode) →
    ((∃ x nn, i = .random x nn) → q.rnd = p.rnd) →
    exec i s = .next t → exec i { s with inputs := q :: rest } = .next { t with inputs := q :: rest }

/-- The invariant of every run (memory canonical; SP in 0..16, R37; FAULT_CODE one of 0..3, R35, R121) is kept by every
cycle, from every state that has it. -/
def Obligations.EveryCycleKeepsTheInvariant : Prop :=
  ∀ s t : State, s.Inv → step s = .next t → t.Inv

/-- The state after reset has the invariant. -/
def Obligations.ResetHasTheInvariant : Prop := State.reset.Inv

/-! ### Faults -/

/-- R95, R240: a word that matches no row of the opcode map is not executed: the step raises InvalidInstruction with the
raw word and pc, and nothing but the latch changes. -/
def Obligations.AnUnmatchedWordRaisesInvalidInstruction : Prop :=
  ∀ s : State, s.faultCode = 0 → (∀ r ∈ opcodeRows, s.fetchWord &&& r.mask ≠ r.code) →
    ∃ t, runStep s = .next t ∧ LatchesFault 1 s.fetchWord.toNat s t ∧ SameBut [.latch] s t

/-- R249: a step faults only by decode failure, Call with SP = 16 or Return with SP = 0, with the code of that cause. -/
def Obligations.AStepFaultsForThreeCausesOnly : Prop :=
  ∀ s t : State, s.faultCode = 0 → runStep s = .next t →
    (decode s.fetchWord = none → t.faultCode = 1) ∧
    ((∃ a, decode s.fetchWord = some (.call a)) → s.sp = 16 → t.faultCode = 3) ∧
    (decode s.fetchWord = some .ret → s.sp = 0 → t.faultCode = 2) ∧
    (t.result = .faulted ∨ t.faultCode ≠ 0 →
      decode s.fetchWord = none ∨ ((∃ a, decode s.fetchWord = some (.call a)) ∧ s.sp = 16) ∨
        (decode s.fetchWord = some .ret ∧ s.sp = 0))

/-- R244, R245: a step that faults commits the latch (code, fetched word, pc) and nothing else, and pc addresses the
faulting instruction. -/
def Obligations.FaultsArePrecise : Prop :=
  ∀ s t : State, s.faultCode = 0 → runStep s = .next t → t.result = .faulted →
    SameBut [.latch] s t ∧ LatchesFault t.faultCode.toNat s.fetchWord.toNat s t ∧ 1 ≤ t.faultCode.toNat ∧
      t.faultCode.toNat ≤ 3

/-- R246: while faulted a step strobe executes nothing and gives result 0; the tick, `dirty_clr` and the load port keep
working. -/
def Obligations.AFaultedBlockExecutesNothing : Prop :=
  ∀ s : State, s.faultCode ≠ 0 → s.ports.NoReset → ∃ t, step s = .next t ∧ t.result = .idle ∧ t.pc = s.pc ∧
    t.mem = s.afterLoad.mem ∧ t.dt.toNat = ticked s.ports s.dt.toNat ∧ t.st.toNat = ticked s.ports s.st.toNat ∧
    t.dirty = (if s.ports.dirtyClr = true then false else s.dirty) ∧
    SameBut [.mem, .delay, .sound, .dirty, .env] s t

/-- R247, R248: a latched fault stays, code, word and pc, through every cycle but a full reset, which clears it. -/
def Obligations.OnlyFullResetClearsTheLatch : Prop :=
  ∀ s t : State, s.faultCode ≠ 0 → step s = .next t →
    (s.ports.rst = false → Part.latch.Same s t) ∧ (s.ports.rst = true → t.faultCode = 0)

/-! ### Reset, clears, load port, boot -/

/-- R43: the reset value of every piece of state, whatever the parameter FONT is. -/
def Obligations.ResetValuesAreTheTables : Prop :=
  ∀ F : Font, let s := State.resetWith F
    (∀ r, s.readV r = 0) ∧ s.I = 0 ∧ s.pc = 0x0200 ∧ s.sp = 0 ∧ (∀ k, s.readStack k = 0) ∧ s.dt = 0 ∧ s.st = 0 ∧
    (∀ r c, s.fb.pixel r c = false) ∧ s.dirty = false ∧ s.faultCode = 0 ∧ s.faultWord = 0 ∧ s.faultPc = 0 ∧
    (∀ a (h : a < 80), s.byteAt a = F[a]) ∧ ∀ a, 80 ≤ a → s.byteAt a = 0

/-- R280–R282: a cycle with `rst` sets every piece of state to its reset value, whatever the state and the other ports
are; memory below 0x050 is the block's FONT, `s.font`. -/
def Obligations.FullResetOverridesEverything : Prop :=
  ∀ s : State, s.ports.rst = true → ∃ t, step s = .next t ∧ t.result = .idle ∧
    (∀ r, t.readV r = 0) ∧ t.I = 0 ∧ t.pc = 0x0200 ∧ t.sp = 0 ∧ (∀ k, t.readStack k = 0) ∧ t.dt = 0 ∧ t.st = 0 ∧
    (∀ r c, t.fb.pixel r c = false) ∧ t.dirty = false ∧ t.faultCode = 0 ∧ t.faultWord = 0 ∧ t.faultPc = 0 ∧
    (∀ a (h : a < 80), t.byteAt a = s.font[a]) ∧ ∀ a, 80 ≤ a → t.byteAt a = 0

/-- R283, R284: each asserted partial clear has its effect and no other; step, tick and load port have none in that
cycle; `dirty_clr` applies; FB and the fault latch are kept. `s.font` is the block's FONT. -/
def Obligations.PartialClearsClearTheirPartsOnly : Prop :=
  ∀ s : State, s.ports.rst = false → s.ports.anyClear = true → ∃ t, step s = .next t ∧ t.result = .idle ∧
    (∀ a (h : a < 80), t.byteAt a = if s.ports.clrMem = true then s.font[a] else s.byteAt a) ∧
    (∀ a, 80 ≤ a → t.byteAt a = if s.ports.clrMem = true then 0 else s.byteAt a) ∧
    (∀ r, t.readV r = if s.ports.clrRegs = true then 0 else s.readV r) ∧
    t.I = (if s.ports.clrRegs = true then 0 else s.I) ∧ t.pc = (if s.ports.clrRegs = true then 0x0200 else s.pc) ∧
    t.sp = (if s.ports.clrStack = true then 0 else s.sp) ∧
    (∀ k, t.readStack k = if s.ports.clrStack = true then 0 else s.readStack k) ∧
    t.dt = (if s.ports.clrTimers = true then 0 else s.dt) ∧ t.st = (if s.ports.clrTimers = true then 0 else s.st) ∧
    t.dirty = (if s.ports.dirtyClr = true then false else s.dirty) ∧ Part.pixels.Same s t ∧ Part.latch.Same s t

/-- R287, R289: the load port writes byte `ld_off` of the program area, drops an offset past it, and cannot write
below 0x200; the write is what the same cycle's step sees, running or faulted. -/
def Obligations.TheLoadPortWritesTheProgramArea : Prop :=
  ∀ (s : State) (a : Nat), s.memWf = true →
    (s.afterLoad.byteAt a =
      if s.ports.ldWe = true ∧ s.ports.ldOff.toNat < 3584 ∧ a = 0x200 + s.ports.ldOff.toNat then s.ports.ldData
      else s.byteAt a) ∧
    (∀ t, s.ports.NoReset → s.ports.step = false ∨ s.faultCode ≠ 0 → step s = .next t →
      t.byteAt a = s.afterLoad.byteAt a ∧ t.pc = s.pc ∧ SameBut [.mem, .delay, .sound, .dirty, .env] s t)

/-- R286–R288: the boot sequence, from any state: after one reset cycle and one load cycle per byte, the image stands at
0x200.., every other byte is as after reset (the block's FONT below 0x050), and the block is ready to run at 0x200; an
image over 3584 bytes is refused. The schedule of the boot cycles' ports is the model's own (DESIGN CHOICE, entries 1 and
9). -/
def Obligations.BootLoadsTheImageOrRefusesIt : Prop :=
  (∀ (image : List Byte) (s : State), image.length ≤ 3584 →
    ∃ s₀ t, bootWith image s = .next s₀ ∧ runCycles (1 + image.length) s₀ = .next t ∧ t.inputs = [] ∧
      t.pc = 0x0200 ∧ SameBut [.mem, .env] (State.resetWith s.font) t ∧
      (∀ k (hk : k < image.length), t.byteAt (0x200 + k) = image[k]) ∧
      (∀ a, a < 0x200 ∨ 0x200 + image.length ≤ a → t.byteAt a = (State.resetWith s.font).byteAt a)) ∧
  ∀ (image : List Byte) (s : State), 3584 < image.length → bootWith image s = .refused .imageTooLong

/-! ### The parameter FONT -/

/-- R45 makes FONT a parameter of the block, so every cycle keeps it, one with a full reset or a clear included (R280,
R283). That it stands in a field of State, `font`, is the model's choice (DESIGN CHOICE, entry 7). -/
def Obligations.EveryCycleKeepsFont : Prop := ∀ s t : State, step s = .next t → t.font = s.font

/-- R45: the default of FONT is the table, the glyph of digit d at bytes 5d to 5d + 4; `State.reset` is the reset of the
block that has it, so its first 80 bytes of memory are the table (R43). -/
def Obligations.TheDefaultFontIsTheTable : Prop :=
  State.reset = State.resetWith defaultFont ∧ defaultFont.toList = (List.range 80).map State.reset.byteAt ∧
  (List.range 80).map State.reset.byteAt =
    [0xF0, 0x90, 0x90, 0x90, 0xF0] ++ [0x20, 0x60, 0x20, 0x20, 0x70] ++ [0xF0, 0x10, 0xF0, 0x80, 0xF0] ++
    [0xF0, 0x10, 0xF0, 0x10, 0xF0] ++ [0x90, 0x90, 0xF0, 0x10, 0x10] ++ [0xF0, 0x80, 0xF0, 0x10, 0xF0] ++
    [0xF0, 0x80, 0xF0, 0x90, 0xF0] ++ [0xF0, 0x10, 0x20, 0x40, 0x40] ++ [0xF0, 0x90, 0xF0, 0x90, 0xF0] ++
    [0xF0, 0x90, 0xF0, 0x10, 0xF0] ++ [0xF0, 0x90, 0xF0, 0x90, 0x90] ++ [0xE0, 0x90, 0xE0, 0x90, 0xE0] ++
    [0xF0, 0x80, 0x80, 0x80, 0xF0] ++ [0xE0, 0x90, 0x90, 0x90, 0xE0] ++ [0xF0, 0x80, 0xF0, 0x80, 0xF0] ++
    [0xF0, 0x80, 0xF0, 0x80, 0x80]
end

