-- ==== Sys2Proof/Laws/Encoding.lean ====
section
/-! SUPPORT. What each field accessor reads from a word put together from fields (R81), for the word shapes of R92: four
nibbles, nibble–nibble–byte, nibble–address. -/

namespace Sys2Proof
variable (o x y n : BitVec 4) (nn : Byte) (nnn : Addr12)

@[simp] theorem fieldOp_address : fieldOp (o ++ nnn) = o := by
  apply BitVec.eq_of_getLsbD_eq; intro k hk
  interval_cases k <;> simp only [fieldOp, BitVec.getLsbD_extractLsb', BitVec.getLsbD_append] <;> rfl

@[simp] theorem fieldNNN_address : fieldNNN (o ++ nnn) = nnn := by
  apply BitVec.eq_of_getLsbD_eq; intro k hk
  interval_cases k <;> simp only [fieldNNN, BitVec.getLsbD_extractLsb', BitVec.getLsbD_append] <;> rfl

@[simp] theorem fieldOp_byte : fieldOp (o ++ x ++ nn) = o := by
  apply BitVec.eq_of_getLsbD_eq; intro k hk
  interval_cases k <;> simp only [fieldOp, BitVec.getLsbD_extractLsb', BitVec.getLsbD_append] <;> rfl

@[simp] theorem fieldX_byte : fieldX (o ++ x ++ nn) = x := by
  apply BitVec.eq_of_getLsbD_eq; intro k hk
  interval_cases k <;> simp only [fieldX, BitVec.getLsbD_extractLsb', BitVec.getLsbD_append] <;> rfl

@[simp] theorem fieldNN_byte : fieldNN (o ++ x ++ nn) = nn := by
  apply BitVec.eq_of_getLsbD_eq; intro k hk
  interval_cases k <;> simp only [fieldNN, BitVec.getLsbD_extractLsb', BitVec.getLsbD_append] <;> rfl

@[simp] theorem fieldN_byte : fieldN (o ++ x ++ nn) = nn.extractLsb' 0 4 := by
  apply BitVec.eq_of_getLsbD_eq; intro k hk
  interval_cases k <;> simp only [fieldN, BitVec.getLsbD_extractLsb', BitVec.getLsbD_append] <;> rfl

@[simp] theorem fieldOp_nibbles : fieldOp (o ++ x ++ y ++ n) = o := by
  apply BitVec.eq_of_getLsbD_eq; intro k hk
  interval_cases k <;> simp only [fieldOp, BitVec.getLsbD_extractLsb', BitVec.getLsbD_append] <;> rfl

@[simp] theorem fieldX_nibbles : fieldX (o ++ x ++ y ++ n) = x := by
  apply BitVec.eq_of_getLsbD_eq; intro k hk
  interval_cases k <;> simp only [fieldX, BitVec.getLsbD_extractLsb', BitVec.getLsbD_append] <;> rfl

@[simp] theorem fieldY_nibbles : fieldY (o ++ x ++ y ++ n) = y := by
  apply BitVec.eq_of_getLsbD_eq; intro k hk
  interval_cases k <;> simp only [fieldY, BitVec.getLsbD_extractLsb', BitVec.getLsbD_append] <;> rfl

@[simp] theorem fieldN_nibbles : fieldN (o ++ x ++ y ++ n) = n := by
  apply BitVec.eq_of_getLsbD_eq; intro k hk
  interval_cases k <;> simp only [fieldN, BitVec.getLsbD_extractLsb', BitVec.getLsbD_append] <;> rfl

/-- A word is its four nibbles (R81: `nnn = x ++ y ++ n`). -/
theorem word_eq_nibbles (w : Word) : w = fieldOp w ++ fieldX w ++ fieldY w ++ fieldN w := by
  apply BitVec.eq_of_getLsbD_eq; intro k hk
  interval_cases k <;> simp only [fieldOp, fieldX, fieldY, fieldN, BitVec.getLsbD_extractLsb', BitVec.getLsbD_append] <;> rfl

/-- A word is its dispatch nibble, x and nn. -/
theorem word_eq_byte (w : Word) : w = fieldOp w ++ fieldX w ++ fieldNN w := by
  apply BitVec.eq_of_getLsbD_eq; intro k hk
  interval_cases k <;> simp only [fieldOp, fieldX, fieldNN, BitVec.getLsbD_extractLsb', BitVec.getLsbD_append] <;> rfl

/-- A word is its dispatch nibble and nnn. -/
theorem word_eq_address (w : Word) : w = fieldOp w ++ fieldNNN w := by
  apply BitVec.eq_of_getLsbD_eq; intro k hk
  interval_cases k <;> simp only [fieldOp, fieldNNN, BitVec.getLsbD_extractLsb', BitVec.getLsbD_append] <;> rfl

/-- The two bytes of a word, joined again (R63). -/
@[simp] theorem joinBytes_hi_lo (w : Word) : joinBytes (hiByte w) (loByte w) = w := by
  apply BitVec.eq_of_getLsbD_eq; intro k hk
  interval_cases k <;> simp only [joinBytes, hiByte, loByte, BitVec.getLsbD_extractLsb', BitVec.getLsbD_append] <;> rfl

@[simp] theorem append_hi_lo (w : Word) : hiByte w ++ loByte w = w := joinBytes_hi_lo w

/-! ### Rows of the opcode map on a word put together from fields -/

theorem selects_address (c : Word) : (OpcodeRow.mk c 0xF000).selects (o ++ nnn) = (o ++ 0x000#12 == c) := by
  have : (o ++ nnn) &&& (0xF000 : Word) = o ++ 0x000#12 := by
    apply BitVec.eq_of_getLsbD_eq; intro k hk
    interval_cases k <;> simp only [BitVec.getLsbD_and, BitVec.getLsbD_append] <;>
      first | exact Bool.and_true _ | exact Bool.and_false _
  simp only [OpcodeRow.selects, this]

theorem selects_byte (c : Word) : (OpcodeRow.mk c 0xF0FF).selects (o ++ x ++ nn) = (o ++ 0x0#4 ++ nn == c) := by
  have : (o ++ x ++ nn) &&& (0xF0FF : Word) = o ++ 0x0#4 ++ nn := by
    apply BitVec.eq_of_getLsbD_eq; intro k hk
    interval_cases k <;> simp only [BitVec.getLsbD_and, BitVec.getLsbD_append] <;>
      first | exact Bool.and_true _ | exact Bool.and_false _
  simp only [OpcodeRow.selects, this]

theorem selects_byteOp (c : Word) : (OpcodeRow.mk c 0xF000).selects (o ++ x ++ nn) = (o ++ 0x000#12 == c) := by
  have : (o ++ x ++ nn) &&& (0xF000 : Word) = o ++ 0x000#12 := by
    apply BitVec.eq_of_getLsbD_eq; intro k hk
    interval_cases k <;> simp only [BitVec.getLsbD_and, BitVec.getLsbD_append] <;>
      first | exact Bool.and_true _ | exact Bool.and_false _
  simp only [OpcodeRow.selects, this]

theorem selects_nibbles (c : Word) :
    (OpcodeRow.mk c 0xF00F).selects (o ++ x ++ y ++ n) = (o ++ 0x00#8 ++ n == c) := by
  have : (o ++ x ++ y ++ n) &&& (0xF00F : Word) = o ++ 0x00#8 ++ n := by
    apply BitVec.eq_of_getLsbD_eq; intro k hk
    interval_cases k <;> simp only [BitVec.getLsbD_and, BitVec.getLsbD_append] <;>
      first | exact Bool.and_true _ | exact Bool.and_false _
  simp only [OpcodeRow.selects, this]

theorem selects_nibblesOp (c : Word) :
    (OpcodeRow.mk c 0xF000).selects (o ++ x ++ y ++ n) = (o ++ 0x000#12 == c) := by
  have : (o ++ x ++ y ++ n) &&& (0xF000 : Word) = o ++ 0x000#12 := by
    apply BitVec.eq_of_getLsbD_eq; intro k hk
    interval_cases k <;> simp only [BitVec.getLsbD_and, BitVec.getLsbD_append] <;>
      first | exact Bool.and_true _ | exact Bool.and_false _
  simp only [OpcodeRow.selects, this]

theorem selects_shift (c : Word) : (OpcodeRow.mk c 0xF00F).selects (o ++ x ++ nn) = (o ++ 0x00#8 ++ nn.extractLsb' 0 4 == c) := by
  have : (o ++ x ++ nn) &&& (0xF00F : Word) = o ++ 0x00#8 ++ nn.extractLsb' 0 4 := by
    apply BitVec.eq_of_getLsbD_eq; intro k hk
    interval_cases k <;> simp only [BitVec.getLsbD_and, BitVec.getLsbD_append, BitVec.getLsbD_extractLsb'] <;>
      first | rfl | exact Bool.and_true _ | exact Bool.and_false _
  simp only [OpcodeRow.selects, this]

end Sys2Proof
end

