-- ==== Sys2Proof/Laws/State.lean ====
section
/-! SUPPORT. One lemma per field per named update of State: the value the update writes, or that the field is kept.
No later proof unfolds a record update. -/

namespace Sys2Proof.Machine
variable (s : State)

/-! ### writeV -/

@[simp] theorem State.mem_writeV (x : RegIdx) (b : Byte) : (s.writeV x b).mem = s.mem := rfl
@[simp] theorem State.v_writeV (x : RegIdx) (b : Byte) : (s.writeV x b).v = s.v.set x.toNat b x.isLt := rfl
@[simp] theorem State.I_writeV (x : RegIdx) (b : Byte) : (s.writeV x b).I = s.I := rfl
@[simp] theorem State.pc_writeV (x : RegIdx) (b : Byte) : (s.writeV x b).pc = s.pc := rfl
@[simp] theorem State.stack_writeV (x : RegIdx) (b : Byte) : (s.writeV x b).stack = s.stack := rfl
@[simp] theorem State.sp_writeV (x : RegIdx) (b : Byte) : (s.writeV x b).sp = s.sp := rfl
@[simp] theorem State.dt_writeV (x : RegIdx) (b : Byte) : (s.writeV x b).dt = s.dt := rfl
@[simp] theorem State.st_writeV (x : RegIdx) (b : Byte) : (s.writeV x b).st = s.st := rfl
@[simp] theorem State.fb_writeV (x : RegIdx) (b : Byte) : (s.writeV x b).fb = s.fb := rfl
@[simp] theorem State.dirty_writeV (x : RegIdx) (b : Byte) : (s.writeV x b).dirty = s.dirty := rfl
@[simp] theorem State.faultCode_writeV (x : RegIdx) (b : Byte) : (s.writeV x b).faultCode = s.faultCode := rfl
@[simp] theorem State.faultWord_writeV (x : RegIdx) (b : Byte) : (s.writeV x b).faultWord = s.faultWord := rfl
@[simp] theorem State.faultPc_writeV (x : RegIdx) (b : Byte) : (s.writeV x b).faultPc = s.faultPc := rfl
@[simp] theorem State.result_writeV (x : RegIdx) (b : Byte) : (s.writeV x b).result = s.result := rfl
@[simp] theorem State.inputs_writeV (x : RegIdx) (b : Byte) : (s.writeV x b).inputs = s.inputs := rfl
@[simp] theorem State.cycle_writeV (x : RegIdx) (b : Byte) : (s.writeV x b).cycle = s.cycle := rfl
@[simp] theorem State.font_writeV (x : RegIdx) (b : Byte) : (s.writeV x b).font = s.font := rfl
@[simp] theorem State.ports_writeV (x : RegIdx) (b : Byte) : (s.writeV x b).ports = s.ports := rfl
@[simp] theorem State.byteAt_writeV (x : RegIdx) (b : Byte) (k : Nat) : (s.writeV x b).byteAt k = s.byteAt k := rfl
@[simp] theorem State.memWf_writeV (x : RegIdx) (b : Byte) : (s.writeV x b).memWf = s.memWf := rfl
@[simp] theorem State.memRead_writeV (x : RegIdx) (b : Byte) (k : Nat) : (s.writeV x b).memRead k = s.memRead k := rfl
@[simp] theorem State.readStack_writeV (x : RegIdx) (b : Byte) (k : BitVec 5) : (s.writeV x b).readStack k = s.readStack k := rfl
@[simp] theorem State.fetchWord_writeV (x : RegIdx) (b : Byte) : (s.writeV x b).fetchWord = s.fetchWord := rfl

/-! ### setI -/

@[simp] theorem State.mem_setI (w : Word) : (s.setI w).mem = s.mem := rfl
@[simp] theorem State.v_setI (w : Word) : (s.setI w).v = s.v := rfl
@[simp] theorem State.I_setI (w : Word) : (s.setI w).I = w := rfl
@[simp] theorem State.pc_setI (w : Word) : (s.setI w).pc = s.pc := rfl
@[simp] theorem State.stack_setI (w : Word) : (s.setI w).stack = s.stack := rfl
@[simp] theorem State.sp_setI (w : Word) : (s.setI w).sp = s.sp := rfl
@[simp] theorem State.dt_setI (w : Word) : (s.setI w).dt = s.dt := rfl
@[simp] theorem State.st_setI (w : Word) : (s.setI w).st = s.st := rfl
@[simp] theorem State.fb_setI (w : Word) : (s.setI w).fb = s.fb := rfl
@[simp] theorem State.dirty_setI (w : Word) : (s.setI w).dirty = s.dirty := rfl
@[simp] theorem State.faultCode_setI (w : Word) : (s.setI w).faultCode = s.faultCode := rfl
@[simp] theorem State.faultWord_setI (w : Word) : (s.setI w).faultWord = s.faultWord := rfl
@[simp] theorem State.faultPc_setI (w : Word) : (s.setI w).faultPc = s.faultPc := rfl
@[simp] theorem State.result_setI (w : Word) : (s.setI w).result = s.result := rfl
@[simp] theorem State.inputs_setI (w : Word) : (s.setI w).inputs = s.inputs := rfl
@[simp] theorem State.cycle_setI (w : Word) : (s.setI w).cycle = s.cycle := rfl
@[simp] theorem State.font_setI (w : Word) : (s.setI w).font = s.font := rfl
@[simp] theorem State.ports_setI (w : Word) : (s.setI w).ports = s.ports := rfl
@[simp] theorem State.readV_setI (w : Word) (r : RegIdx) : (s.setI w).readV r = s.readV r := rfl
@[simp] theorem State.byteAt_setI (w : Word) (k : Nat) : (s.setI w).byteAt k = s.byteAt k := rfl
@[simp] theorem State.memWf_setI (w : Word) : (s.setI w).memWf = s.memWf := rfl
@[simp] theorem State.memRead_setI (w : Word) (k : Nat) : (s.setI w).memRead k = s.memRead k := rfl
@[simp] theorem State.readStack_setI (w : Word) (k : BitVec 5) : (s.setI w).readStack k = s.readStack k := rfl
@[simp] theorem State.fetchWord_setI (w : Word) : (s.setI w).fetchWord = s.fetchWord := rfl

/-! ### setPc -/

@[simp] theorem State.mem_setPc (w : Word) : (s.setPc w).mem = s.mem := rfl
@[simp] theorem State.v_setPc (w : Word) : (s.setPc w).v = s.v := rfl
@[simp] theorem State.I_setPc (w : Word) : (s.setPc w).I = s.I := rfl
@[simp] theorem State.pc_setPc (w : Word) : (s.setPc w).pc = w := rfl
@[simp] theorem State.stack_setPc (w : Word) : (s.setPc w).stack = s.stack := rfl
@[simp] theorem State.sp_setPc (w : Word) : (s.setPc w).sp = s.sp := rfl
@[simp] theorem State.dt_setPc (w : Word) : (s.setPc w).dt = s.dt := rfl
@[simp] theorem State.st_setPc (w : Word) : (s.setPc w).st = s.st := rfl
@[simp] theorem State.fb_setPc (w : Word) : (s.setPc w).fb = s.fb := rfl
@[simp] theorem State.dirty_setPc (w : Word) : (s.setPc w).dirty = s.dirty := rfl
@[simp] theorem State.faultCode_setPc (w : Word) : (s.setPc w).faultCode = s.faultCode := rfl
@[simp] theorem State.faultWord_setPc (w : Word) : (s.setPc w).faultWord = s.faultWord := rfl
@[simp] theorem State.faultPc_setPc (w : Word) : (s.setPc w).faultPc = s.faultPc := rfl
@[simp] theorem State.result_setPc (w : Word) : (s.setPc w).result = s.result := rfl
@[simp] theorem State.inputs_setPc (w : Word) : (s.setPc w).inputs = s.inputs := rfl
@[simp] theorem State.cycle_setPc (w : Word) : (s.setPc w).cycle = s.cycle := rfl
@[simp] theorem State.font_setPc (w : Word) : (s.setPc w).font = s.font := rfl
@[simp] theorem State.ports_setPc (w : Word) : (s.setPc w).ports = s.ports := rfl
@[simp] theorem State.readV_setPc (w : Word) (r : RegIdx) : (s.setPc w).readV r = s.readV r := rfl
@[simp] theorem State.byteAt_setPc (w : Word) (k : Nat) : (s.setPc w).byteAt k = s.byteAt k := rfl
@[simp] theorem State.memWf_setPc (w : Word) : (s.setPc w).memWf = s.memWf := rfl
@[simp] theorem State.memRead_setPc (w : Word) (k : Nat) : (s.setPc w).memRead k = s.memRead k := rfl
@[simp] theorem State.readStack_setPc (w : Word) (k : BitVec 5) : (s.setPc w).readStack k = s.readStack k := rfl

/-! ### setDt -/

@[simp] theorem State.mem_setDt (b : Byte) : (s.setDt b).mem = s.mem := rfl
@[simp] theorem State.v_setDt (b : Byte) : (s.setDt b).v = s.v := rfl
@[simp] theorem State.I_setDt (b : Byte) : (s.setDt b).I = s.I := rfl
@[simp] theorem State.pc_setDt (b : Byte) : (s.setDt b).pc = s.pc := rfl
@[simp] theorem State.stack_setDt (b : Byte) : (s.setDt b).stack = s.stack := rfl
@[simp] theorem State.sp_setDt (b : Byte) : (s.setDt b).sp = s.sp := rfl
@[simp] theorem State.dt_setDt (b : Byte) : (s.setDt b).dt = b := rfl
@[simp] theorem State.st_setDt (b : Byte) : (s.setDt b).st = s.st := rfl
@[simp] theorem State.fb_setDt (b : Byte) : (s.setDt b).fb = s.fb := rfl
@[simp] theorem State.dirty_setDt (b : Byte) : (s.setDt b).dirty = s.dirty := rfl
@[simp] theorem State.faultCode_setDt (b : Byte) : (s.setDt b).faultCode = s.faultCode := rfl
@[simp] theorem State.faultWord_setDt (b : Byte) : (s.setDt b).faultWord = s.faultWord := rfl
@[simp] theorem State.faultPc_setDt (b : Byte) : (s.setDt b).faultPc = s.faultPc := rfl
@[simp] theorem State.result_setDt (b : Byte) : (s.setDt b).result = s.result := rfl
@[simp] theorem State.inputs_setDt (b : Byte) : (s.setDt b).inputs = s.inputs := rfl
@[simp] theorem State.cycle_setDt (b : Byte) : (s.setDt b).cycle = s.cycle := rfl
@[simp] theorem State.font_setDt (b : Byte) : (s.setDt b).font = s.font := rfl
@[simp] theorem State.ports_setDt (b : Byte) : (s.setDt b).ports = s.ports := rfl
@[simp] theorem State.readV_setDt (b : Byte) (r : RegIdx) : (s.setDt b).readV r = s.readV r := rfl
@[simp] theorem State.byteAt_setDt (b : Byte) (k : Nat) : (s.setDt b).byteAt k = s.byteAt k := rfl
@[simp] theorem State.memWf_setDt (b : Byte) : (s.setDt b).memWf = s.memWf := rfl
@[simp] theorem State.memRead_setDt (b : Byte) (k : Nat) : (s.setDt b).memRead k = s.memRead k := rfl
@[simp] theorem State.readStack_setDt (b : Byte) (k : BitVec 5) : (s.setDt b).readStack k = s.readStack k := rfl
@[simp] theorem State.fetchWord_setDt (b : Byte) : (s.setDt b).fetchWord = s.fetchWord := rfl

/-! ### setSt -/

@[simp] theorem State.mem_setSt (b : Byte) : (s.setSt b).mem = s.mem := rfl
@[simp] theorem State.v_setSt (b : Byte) : (s.setSt b).v = s.v := rfl
@[simp] theorem State.I_setSt (b : Byte) : (s.setSt b).I = s.I := rfl
@[simp] theorem State.pc_setSt (b : Byte) : (s.setSt b).pc = s.pc := rfl
@[simp] theorem State.stack_setSt (b : Byte) : (s.setSt b).stack = s.stack := rfl
@[simp] theorem State.sp_setSt (b : Byte) : (s.setSt b).sp = s.sp := rfl
@[simp] theorem State.dt_setSt (b : Byte) : (s.setSt b).dt = s.dt := rfl
@[simp] theorem State.st_setSt (b : Byte) : (s.setSt b).st = b := rfl
@[simp] theorem State.fb_setSt (b : Byte) : (s.setSt b).fb = s.fb := rfl
@[simp] theorem State.dirty_setSt (b : Byte) : (s.setSt b).dirty = s.dirty := rfl
@[simp] theorem State.faultCode_setSt (b : Byte) : (s.setSt b).faultCode = s.faultCode := rfl
@[simp] theorem State.faultWord_setSt (b : Byte) : (s.setSt b).faultWord = s.faultWord := rfl
@[simp] theorem State.faultPc_setSt (b : Byte) : (s.setSt b).faultPc = s.faultPc := rfl
@[simp] theorem State.result_setSt (b : Byte) : (s.setSt b).result = s.result := rfl
@[simp] theorem State.inputs_setSt (b : Byte) : (s.setSt b).inputs = s.inputs := rfl
@[simp] theorem State.cycle_setSt (b : Byte) : (s.setSt b).cycle = s.cycle := rfl
@[simp] theorem State.font_setSt (b : Byte) : (s.setSt b).font = s.font := rfl
@[simp] theorem State.ports_setSt (b : Byte) : (s.setSt b).ports = s.ports := rfl
@[simp] theorem State.readV_setSt (b : Byte) (r : RegIdx) : (s.setSt b).readV r = s.readV r := rfl
@[simp] theorem State.byteAt_setSt (b : Byte) (k : Nat) : (s.setSt b).byteAt k = s.byteAt k := rfl
@[simp] theorem State.memWf_setSt (b : Byte) : (s.setSt b).memWf = s.memWf := rfl
@[simp] theorem State.memRead_setSt (b : Byte) (k : Nat) : (s.setSt b).memRead k = s.memRead k := rfl
@[simp] theorem State.readStack_setSt (b : Byte) (k : BitVec 5) : (s.setSt b).readStack k = s.readStack k := rfl
@[simp] theorem State.fetchWord_setSt (b : Byte) : (s.setSt b).fetchWord = s.fetchWord := rfl

/-! ### setResult -/

@[simp] theorem State.mem_setResult (o : StepResult) : (s.setResult o).mem = s.mem := rfl
@[simp] theorem State.v_setResult (o : StepResult) : (s.setResult o).v = s.v := rfl
@[simp] theorem State.I_setResult (o : StepResult) : (s.setResult o).I = s.I := rfl
@[simp] theorem State.pc_setResult (o : StepResult) : (s.setResult o).pc = s.pc := rfl
@[simp] theorem State.stack_setResult (o : StepResult) : (s.setResult o).stack = s.stack := rfl
@[simp] theorem State.sp_setResult (o : StepResult) : (s.setResult o).sp = s.sp := rfl
@[simp] theorem State.dt_setResult (o : StepResult) : (s.setResult o).dt = s.dt := rfl
@[simp] theorem State.st_setResult (o : StepResult) : (s.setResult o).st = s.st := rfl
@[simp] theorem State.fb_setResult (o : StepResult) : (s.setResult o).fb = s.fb := rfl
@[simp] theorem State.dirty_setResult (o : StepResult) : (s.setResult o).dirty = s.dirty := rfl
@[simp] theorem State.faultCode_setResult (o : StepResult) : (s.setResult o).faultCode = s.faultCode := rfl
@[simp] theorem State.faultWord_setResult (o : StepResult) : (s.setResult o).faultWord = s.faultWord := rfl
@[simp] theorem State.faultPc_setResult (o : StepResult) : (s.setResult o).faultPc = s.faultPc := rfl
@[simp] theorem State.result_setResult (o : StepResult) : (s.setResult o).result = o := rfl
@[simp] theorem State.inputs_setResult (o : StepResult) : (s.setResult o).inputs = s.inputs := rfl
@[simp] theorem State.cycle_setResult (o : StepResult) : (s.setResult o).cycle = s.cycle := rfl
@[simp] theorem State.font_setResult (o : StepResult) : (s.setResult o).font = s.font := rfl
@[simp] theorem State.ports_setResult (o : StepResult) : (s.setResult o).ports = s.ports := rfl
@[simp] theorem State.readV_setResult (o : StepResult) (r : RegIdx) : (s.setResult o).readV r = s.readV r := rfl
@[simp] theorem State.byteAt_setResult (o : StepResult) (k : Nat) : (s.setResult o).byteAt k = s.byteAt k := rfl
@[simp] theorem State.memWf_setResult (o : StepResult) : (s.setResult o).memWf = s.memWf := rfl
@[simp] theorem State.memRead_setResult (o : StepResult) (k : Nat) : (s.setResult o).memRead k = s.memRead k := rfl
@[simp] theorem State.readStack_setResult (o : StepResult) (k : BitVec 5) : (s.setResult o).readStack k = s.readStack k := rfl
@[simp] theorem State.fetchWord_setResult (o : StepResult) : (s.setResult o).fetchWord = s.fetchWord := rfl

/-! ### memWriteBytes -/

@[simp] theorem State.mem_memWriteBytes (a : Nat) (bs : List Byte) : (s.memWriteBytes a bs).mem = s.mem.writeBytes s.font a bs := rfl
@[simp] theorem State.v_memWriteBytes (a : Nat) (bs : List Byte) : (s.memWriteBytes a bs).v = s.v := rfl
@[simp] theorem State.I_memWriteBytes (a : Nat) (bs : List Byte) : (s.memWriteBytes a bs).I = s.I := rfl
@[simp] theorem State.pc_memWriteBytes (a : Nat) (bs : List Byte) : (s.memWriteBytes a bs).pc = s.pc := rfl
@[simp] theorem State.stack_memWriteBytes (a : Nat) (bs : List Byte) : (s.memWriteBytes a bs).stack = s.stack := rfl
@[simp] theorem State.sp_memWriteBytes (a : Nat) (bs : List Byte) : (s.memWriteBytes a bs).sp = s.sp := rfl
@[simp] theorem State.dt_memWriteBytes (a : Nat) (bs : List Byte) : (s.memWriteBytes a bs).dt = s.dt := rfl
@[simp] theorem State.st_memWriteBytes (a : Nat) (bs : List Byte) : (s.memWriteBytes a bs).st = s.st := rfl
@[simp] theorem State.fb_memWriteBytes (a : Nat) (bs : List Byte) : (s.memWriteBytes a bs).fb = s.fb := rfl
@[simp] theorem State.dirty_memWriteBytes (a : Nat) (bs : List Byte) : (s.memWriteBytes a bs).dirty = s.dirty := rfl
@[simp] theorem State.faultCode_memWriteBytes (a : Nat) (bs : List Byte) : (s.memWriteBytes a bs).faultCode = s.faultCode := rfl
@[simp] theorem State.faultWord_memWriteBytes (a : Nat) (bs : List Byte) : (s.memWriteBytes a bs).faultWord = s.faultWord := rfl
@[simp] theorem State.faultPc_memWriteBytes (a : Nat) (bs : List Byte) : (s.memWriteBytes a bs).faultPc = s.faultPc := rfl
@[simp] theorem State.result_memWriteBytes (a : Nat) (bs : List Byte) : (s.memWriteBytes a bs).result = s.result := rfl
@[simp] theorem State.inputs_memWriteBytes (a : Nat) (bs : List Byte) : (s.memWriteBytes a bs).inputs = s.inputs := rfl
@[simp] theorem State.cycle_memWriteBytes (a : Nat) (bs : List Byte) : (s.memWriteBytes a bs).cycle = s.cycle := rfl
@[simp] theorem State.font_memWriteBytes (a : Nat) (bs : List Byte) : (s.memWriteBytes a bs).font = s.font := rfl
@[simp] theorem State.ports_memWriteBytes (a : Nat) (bs : List Byte) : (s.memWriteBytes a bs).ports = s.ports := rfl
@[simp] theorem State.readV_memWriteBytes (a : Nat) (bs : List Byte) (r : RegIdx) : (s.memWriteBytes a bs).readV r = s.readV r := rfl
@[simp] theorem State.readStack_memWriteBytes (a : Nat) (bs : List Byte) (k : BitVec 5) : (s.memWriteBytes a bs).readStack k = s.readStack k := rfl

/-! ### push -/

@[simp] theorem State.mem_push (w : Word) : (s.push w).mem = s.mem := rfl
@[simp] theorem State.v_push (w : Word) : (s.push w).v = s.v := rfl
@[simp] theorem State.I_push (w : Word) : (s.push w).I = s.I := rfl
@[simp] theorem State.pc_push (w : Word) : (s.push w).pc = s.pc := rfl
@[simp] theorem State.stack_push (w : Word) : (s.push w).stack = s.stack.set (s.sp.toNat % 16) w (Nat.mod_lt _ (by decide)) := rfl
@[simp] theorem State.sp_push (w : Word) : (s.push w).sp = s.sp + 1 := rfl
@[simp] theorem State.dt_push (w : Word) : (s.push w).dt = s.dt := rfl
@[simp] theorem State.st_push (w : Word) : (s.push w).st = s.st := rfl
@[simp] theorem State.fb_push (w : Word) : (s.push w).fb = s.fb := rfl
@[simp] theorem State.dirty_push (w : Word) : (s.push w).dirty = s.dirty := rfl
@[simp] theorem State.faultCode_push (w : Word) : (s.push w).faultCode = s.faultCode := rfl
@[simp] theorem State.faultWord_push (w : Word) : (s.push w).faultWord = s.faultWord := rfl
@[simp] theorem State.faultPc_push (w : Word) : (s.push w).faultPc = s.faultPc := rfl
@[simp] theorem State.result_push (w : Word) : (s.push w).result = s.result := rfl
@[simp] theorem State.inputs_push (w : Word) : (s.push w).inputs = s.inputs := rfl
@[simp] theorem State.cycle_push (w : Word) : (s.push w).cycle = s.cycle := rfl
@[simp] theorem State.font_push (w : Word) : (s.push w).font = s.font := rfl
@[simp] theorem State.ports_push (w : Word) : (s.push w).ports = s.ports := rfl
@[simp] theorem State.readV_push (w : Word) (r : RegIdx) : (s.push w).readV r = s.readV r := rfl
@[simp] theorem State.byteAt_push (w : Word) (k : Nat) : (s.push w).byteAt k = s.byteAt k := rfl
@[simp] theorem State.memWf_push (w : Word) : (s.push w).memWf = s.memWf := rfl
@[simp] theorem State.memRead_push (w : Word) (k : Nat) : (s.push w).memRead k = s.memRead k := rfl
@[simp] theorem State.fetchWord_push (w : Word) : (s.push w).fetchWord = s.fetchWord := rfl

/-! ### pop -/

@[simp] theorem State.mem_pop : (s.pop).mem = s.mem := rfl
@[simp] theorem State.v_pop : (s.pop).v = s.v := rfl
@[simp] theorem State.I_pop : (s.pop).I = s.I := rfl
@[simp] theorem State.pc_pop : (s.pop).pc = s.pc := rfl
@[simp] theorem State.stack_pop : (s.pop).stack = s.stack := rfl
@[simp] theorem State.sp_pop : (s.pop).sp = s.sp - 1 := rfl
@[simp] theorem State.dt_pop : (s.pop).dt = s.dt := rfl
@[simp] theorem State.st_pop : (s.pop).st = s.st := rfl
@[simp] theorem State.fb_pop : (s.pop).fb = s.fb := rfl
@[simp] theorem State.dirty_pop : (s.pop).dirty = s.dirty := rfl
@[simp] theorem State.faultCode_pop : (s.pop).faultCode = s.faultCode := rfl
@[simp] theorem State.faultWord_pop : (s.pop).faultWord = s.faultWord := rfl
@[simp] theorem State.faultPc_pop : (s.pop).faultPc = s.faultPc := rfl
@[simp] theorem State.result_pop : (s.pop).result = s.result := rfl
@[simp] theorem State.inputs_pop : (s.pop).inputs = s.inputs := rfl
@[simp] theorem State.cycle_pop : (s.pop).cycle = s.cycle := rfl
@[simp] theorem State.font_pop : (s.pop).font = s.font := rfl
@[simp] theorem State.ports_pop : (s.pop).ports = s.ports := rfl
@[simp] theorem State.readV_pop (r : RegIdx) : (s.pop).readV r = s.readV r := rfl
@[simp] theorem State.byteAt_pop (k : Nat) : (s.pop).byteAt k = s.byteAt k := rfl
@[simp] theorem State.memWf_pop : (s.pop).memWf = s.memWf := rfl
@[simp] theorem State.memRead_pop (k : Nat) : (s.pop).memRead k = s.memRead k := rfl
@[simp] theorem State.readStack_pop (k : BitVec 5) : (s.pop).readStack k = s.readStack k := rfl
@[simp] theorem State.fetchWord_pop : (s.pop).fetchWord = s.fetchWord := rfl

/-! ### setFrame -/

@[simp] theorem State.mem_setFrame (fb : Framebuffer) : (s.setFrame fb).mem = s.mem := rfl
@[simp] theorem State.v_setFrame (fb : Framebuffer) : (s.setFrame fb).v = s.v := rfl
@[simp] theorem State.I_setFrame (fb : Framebuffer) : (s.setFrame fb).I = s.I := rfl
@[simp] theorem State.pc_setFrame (fb : Framebuffer) : (s.setFrame fb).pc = s.pc := rfl
@[simp] theorem State.stack_setFrame (fb : Framebuffer) : (s.setFrame fb).stack = s.stack := rfl
@[simp] theorem State.sp_setFrame (fb : Framebuffer) : (s.setFrame fb).sp = s.sp := rfl
@[simp] theorem State.dt_setFrame (fb : Framebuffer) : (s.setFrame fb).dt = s.dt := rfl
@[simp] theorem State.st_setFrame (fb : Framebuffer) : (s.setFrame fb).st = s.st := rfl
@[simp] theorem State.fb_setFrame (fb : Framebuffer) : (s.setFrame fb).fb = fb := rfl
@[simp] theorem State.dirty_setFrame (fb : Framebuffer) : (s.setFrame fb).dirty = true := rfl
@[simp] theorem State.faultCode_setFrame (fb : Framebuffer) : (s.setFrame fb).faultCode = s.faultCode := rfl
@[simp] theorem State.faultWord_setFrame (fb : Framebuffer) : (s.setFrame fb).faultWord = s.faultWord := rfl
@[simp] theorem State.faultPc_setFrame (fb : Framebuffer) : (s.setFrame fb).faultPc = s.faultPc := rfl
@[simp] theorem State.result_setFrame (fb : Framebuffer) : (s.setFrame fb).result = s.result := rfl
@[simp] theorem State.inputs_setFrame (fb : Framebuffer) : (s.setFrame fb).inputs = s.inputs := rfl
@[simp] theorem State.cycle_setFrame (fb : Framebuffer) : (s.setFrame fb).cycle = s.cycle := rfl
@[simp] theorem State.font_setFrame (fb : Framebuffer) : (s.setFrame fb).font = s.font := rfl
@[simp] theorem State.ports_setFrame (fb : Framebuffer) : (s.setFrame fb).ports = s.ports := rfl
@[simp] theorem State.readV_setFrame (fb : Framebuffer) (r : RegIdx) : (s.setFrame fb).readV r = s.readV r := rfl
@[simp] theorem State.byteAt_setFrame (fb : Framebuffer) (k : Nat) : (s.setFrame fb).byteAt k = s.byteAt k := rfl
@[simp] theorem State.memWf_setFrame (fb : Framebuffer) : (s.setFrame fb).memWf = s.memWf := rfl
@[simp] theorem State.memRead_setFrame (fb : Framebuffer) (k : Nat) : (s.setFrame fb).memRead k = s.memRead k := rfl
@[simp] theorem State.readStack_setFrame (fb : Framebuffer) (k : BitVec 5) : (s.setFrame fb).readStack k = s.readStack k := rfl
@[simp] theorem State.fetchWord_setFrame (fb : Framebuffer) : (s.setFrame fb).fetchWord = s.fetchWord := rfl

/-! ### latchFault -/

@[simp] theorem State.mem_latchFault (f : FaultKind) (w : Word) : (s.latchFault f w).mem = s.mem := rfl
@[simp] theorem State.v_latchFault (f : FaultKind) (w : Word) : (s.latchFault f w).v = s.v := rfl
@[simp] theorem State.I_latchFault (f : FaultKind) (w : Word) : (s.latchFault f w).I = s.I := rfl
@[simp] theorem State.pc_latchFault (f : FaultKind) (w : Word) : (s.latchFault f w).pc = s.pc := rfl
@[simp] theorem State.stack_latchFault (f : FaultKind) (w : Word) : (s.latchFault f w).stack = s.stack := rfl
@[simp] theorem State.sp_latchFault (f : FaultKind) (w : Word) : (s.latchFault f w).sp = s.sp := rfl
@[simp] theorem State.dt_latchFault (f : FaultKind) (w : Word) : (s.latchFault f w).dt = s.dt := rfl
@[simp] theorem State.st_latchFault (f : FaultKind) (w : Word) : (s.latchFault f w).st = s.st := rfl
@[simp] theorem State.fb_latchFault (f : FaultKind) (w : Word) : (s.latchFault f w).fb = s.fb := rfl
@[simp] theorem State.dirty_latchFault (f : FaultKind) (w : Word) : (s.latchFault f w).dirty = s.dirty := rfl
@[simp] theorem State.faultCode_latchFault (f : FaultKind) (w : Word) : (s.latchFault f w).faultCode = f.code := rfl
@[simp] theorem State.faultWord_latchFault (f : FaultKind) (w : Word) : (s.latchFault f w).faultWord = w := rfl
@[simp] theorem State.faultPc_latchFault (f : FaultKind) (w : Word) : (s.latchFault f w).faultPc = s.pc := rfl
@[simp] theorem State.result_latchFault (f : FaultKind) (w : Word) : (s.latchFault f w).result = s.result := rfl
@[simp] theorem State.inputs_latchFault (f : FaultKind) (w : Word) : (s.latchFault f w).inputs = s.inputs := rfl
@[simp] theorem State.cycle_latchFault (f : FaultKind) (w : Word) : (s.latchFault f w).cycle = s.cycle := rfl
@[simp] theorem State.font_latchFault (f : FaultKind) (w : Word) : (s.latchFault f w).font = s.font := rfl
@[simp] theorem State.ports_latchFault (f : FaultKind) (w : Word) : (s.latchFault f w).ports = s.ports := rfl
@[simp] theorem State.readV_latchFault (f : FaultKind) (w : Word) (r : RegIdx) : (s.latchFault f w).readV r = s.readV r := rfl
@[simp] theorem State.byteAt_latchFault (f : FaultKind) (w : Word) (k : Nat) : (s.latchFault f w).byteAt k = s.byteAt k := rfl
@[simp] theorem State.memWf_latchFault (f : FaultKind) (w : Word) : (s.latchFault f w).memWf = s.memWf := rfl
@[simp] theorem State.memRead_latchFault (f : FaultKind) (w : Word) (k : Nat) : (s.latchFault f w).memRead k = s.memRead k := rfl
@[simp] theorem State.readStack_latchFault (f : FaultKind) (w : Word) (k : BitVec 5) : (s.latchFault f w).readStack k = s.readStack k := rfl
@[simp] theorem State.fetchWord_latchFault (f : FaultKind) (w : Word) : (s.latchFault f w).fetchWord = s.fetchWord := rfl

/-! ### fullReset -/

@[simp] theorem State.mem_fullReset : (s.fullReset).mem = (State.resetWith s.font).mem := rfl
@[simp] theorem State.v_fullReset : (s.fullReset).v = (State.resetWith s.font).v := rfl
@[simp] theorem State.I_fullReset : (s.fullReset).I = (State.resetWith s.font).I := rfl
@[simp] theorem State.pc_fullReset : (s.fullReset).pc = (State.resetWith s.font).pc := rfl
@[simp] theorem State.stack_fullReset : (s.fullReset).stack = (State.resetWith s.font).stack := rfl
@[simp] theorem State.sp_fullReset : (s.fullReset).sp = (State.resetWith s.font).sp := rfl
@[simp] theorem State.dt_fullReset : (s.fullReset).dt = (State.resetWith s.font).dt := rfl
@[simp] theorem State.st_fullReset : (s.fullReset).st = (State.resetWith s.font).st := rfl
@[simp] theorem State.fb_fullReset : (s.fullReset).fb = (State.resetWith s.font).fb := rfl
@[simp] theorem State.dirty_fullReset : (s.fullReset).dirty = (State.resetWith s.font).dirty := rfl
@[simp] theorem State.faultCode_fullReset : (s.fullReset).faultCode = (State.resetWith s.font).faultCode := rfl
@[simp] theorem State.faultWord_fullReset : (s.fullReset).faultWord = (State.resetWith s.font).faultWord := rfl
@[simp] theorem State.faultPc_fullReset : (s.fullReset).faultPc = (State.resetWith s.font).faultPc := rfl
@[simp] theorem State.result_fullReset : (s.fullReset).result = (State.resetWith s.font).result := rfl
@[simp] theorem State.inputs_fullReset : (s.fullReset).inputs = s.inputs := rfl
@[simp] theorem State.cycle_fullReset : (s.fullReset).cycle = s.cycle := rfl
@[simp] theorem State.font_fullReset : (s.fullReset).font = s.font := rfl
@[simp] theorem State.ports_fullReset : (s.fullReset).ports = s.ports := rfl

/-! ### endCycle -/

@[simp] theorem State.mem_endCycle : (s.endCycle).mem = s.mem := rfl
@[simp] theorem State.v_endCycle : (s.endCycle).v = s.v := rfl
@[simp] theorem State.I_endCycle : (s.endCycle).I = s.I := rfl
@[simp] theorem State.pc_endCycle : (s.endCycle).pc = s.pc := rfl
@[simp] theorem State.stack_endCycle : (s.endCycle).stack = s.stack := rfl
@[simp] theorem State.sp_endCycle : (s.endCycle).sp = s.sp := rfl
@[simp] theorem State.dt_endCycle : (s.endCycle).dt = s.dt := rfl
@[simp] theorem State.st_endCycle : (s.endCycle).st = s.st := rfl
@[simp] theorem State.fb_endCycle : (s.endCycle).fb = s.fb := rfl
@[simp] theorem State.dirty_endCycle : (s.endCycle).dirty = s.dirty := rfl
@[simp] theorem State.faultCode_endCycle : (s.endCycle).faultCode = s.faultCode := rfl
@[simp] theorem State.faultWord_endCycle : (s.endCycle).faultWord = s.faultWord := rfl
@[simp] theorem State.faultPc_endCycle : (s.endCycle).faultPc = s.faultPc := rfl
@[simp] theorem State.result_endCycle : (s.endCycle).result = s.result := rfl
@[simp] theorem State.inputs_endCycle : (s.endCycle).inputs = s.inputs.tail := rfl
@[simp] theorem State.cycle_endCycle : (s.endCycle).cycle = s.cycle + 1 := rfl
@[simp] theorem State.font_endCycle : (s.endCycle).font = s.font := rfl
@[simp] theorem State.readV_endCycle (r : RegIdx) : (s.endCycle).readV r = s.readV r := rfl
@[simp] theorem State.byteAt_endCycle (k : Nat) : (s.endCycle).byteAt k = s.byteAt k := rfl
@[simp] theorem State.memWf_endCycle : (s.endCycle).memWf = s.memWf := rfl
@[simp] theorem State.memRead_endCycle (k : Nat) : (s.endCycle).memRead k = s.memRead k := rfl
@[simp] theorem State.readStack_endCycle (k : BitVec 5) : (s.endCycle).readStack k = s.readStack k := rfl
@[simp] theorem State.fetchWord_endCycle : (s.endCycle).fetchWord = s.fetchWord := rfl

end Sys2Proof.Machine
end

