-- ==== Sys2Proof/Laws/Memory.lean ====
section
/-! SUPPORT. The laws of memory: a read after a write, what a write leaves alone, and that every memory operation
keeps the canonical form. -/

namespace Sys2Proof.Machine
variable {font : Font}

theorem a12_lt (n : Nat) : a12 n < Config.memSize := Nat.mod_lt _ (by decide)

@[simp] theorem a12_a12 (n : Nat) : a12 (a12 n) = a12 n := Nat.mod_mod _ _

/-! ### Canonical form -/

theorem Memory.wfFrom_mono {m : Memory} {lo lo' : Nat} (h : lo' ≤ lo) (hm : Memory.wfFrom font lo m = true) :
    Memory.wfFrom font lo' m = true := by
  cases m with
  | nil => rfl
  | cons e m =>
    simp only [Memory.wfFrom, Bool.and_eq_true, decide_eq_true_eq] at hm ⊢
    exact ⟨⟨⟨by omega, hm.1.1.2⟩, hm.1.2⟩, hm.2⟩

theorem Memory.read_of_wfFrom {m : Memory} {lo a : Nat} (hm : Memory.wfFrom font lo m = true) (h : a < lo) :
    m.read font a = resetByte font a := by
  induction m generalizing lo with
  | nil => rfl
  | cons e m ih =>
    simp only [Memory.wfFrom, Bool.and_eq_true, decide_eq_true_eq] at hm
    simp only [Memory.read]
    rw [if_neg (by omega), ih hm.2 (by omega)]

theorem Memory.cons_wfFrom {m : Memory} {a : Nat} {b : Byte} {lo : Nat} (hm : Memory.wfFrom font (a + 1) m = true)
    (hlo : lo ≤ a) (ha : a < Config.memSize) : Memory.wfFrom font lo (m.cons font a b) = true := by
  unfold Memory.cons
  split
  · exact Memory.wfFrom_mono (by omega) hm
  · simp only [Memory.wfFrom, Bool.and_eq_true, decide_eq_true_eq]
    exact ⟨⟨⟨hlo, ha⟩, ‹_›⟩, hm⟩

theorem Memory.write_wfFrom {m : Memory} {a : Nat} {b : Byte} {lo : Nat} (hm : Memory.wfFrom font lo m = true)
    (hlo : lo ≤ a) (ha : a < Config.memSize) : Memory.wfFrom font lo (m.write font a b) = true := by
  induction m generalizing lo with
  | nil => exact Memory.cons_wfFrom rfl hlo ha
  | cons e m ih =>
    have hm' := hm
    simp only [Memory.wfFrom, Bool.and_eq_true, decide_eq_true_eq] at hm
    simp only [Memory.write]
    split
    · refine Memory.cons_wfFrom ?_ hlo ha
      simp only [Memory.wfFrom, Bool.and_eq_true, decide_eq_true_eq]
      exact ⟨⟨⟨by omega, hm.1.1.2⟩, hm.1.2⟩, hm.2⟩
    · split
      · subst_vars
        exact Memory.cons_wfFrom hm.2 hlo ha
      · simp only [Memory.wfFrom, Bool.and_eq_true, decide_eq_true_eq]
        exact ⟨hm.1, ih hm.2 (by omega)⟩

/-- A write of a byte keeps the canonical form. -/
theorem Memory.write_wf {m : Memory} {a : Nat} {b : Byte} (hm : m.wf font = true) (ha : a < Config.memSize) :
    (m.write font a b).wf font = true := Memory.write_wfFrom hm (Nat.zero_le _) ha

/-- A sequence of writes keeps the canonical form. -/
theorem Memory.writeBytes_wf {m : Memory} {a : Nat} {bs : List Byte} (hm : m.wf font = true) :
    (m.writeBytes font a bs).wf font = true := by
  induction bs generalizing m a with
  | nil => exact hm
  | cons b bs ih => exact ih (Memory.write_wf hm (a12_lt a))

/-- Memory at reset is canonical: nothing is listed. -/
theorem State.resetWith_memWf : (State.resetWith font).memWf = true := rfl

/-! ### Read after write -/

theorem Memory.read_cons {m : Memory} {a k : Nat} {b : Byte} (hm : Memory.wfFrom font (a + 1) m = true) :
    (m.cons font a b).read font k = if k = a then b else m.read font k := by
  unfold Memory.cons
  split
  · next h =>
    split
    · next hk => subst hk; rw [Memory.read_of_wfFrom hm (by omega), h]
    · rfl
  · simp only [Memory.read, eq_comm]

theorem Memory.read_write_from {m : Memory} {a k : Nat} {b : Byte} {lo : Nat} (hm : Memory.wfFrom font lo m = true) :
    (m.write font a b).read font k = if k = a then b else m.read font k := by
  induction m generalizing lo with
  | nil => exact Memory.read_cons rfl
  | cons e m ih =>
    have hm' := hm
    simp only [Memory.wfFrom, Bool.and_eq_true, decide_eq_true_eq] at hm
    simp only [Memory.write]
    split
    · refine Memory.read_cons ?_
      simp only [Memory.wfFrom, Bool.and_eq_true, decide_eq_true_eq]
      exact ⟨⟨⟨by omega, hm.1.1.2⟩, hm.1.2⟩, hm.2⟩
    · split
      · subst_vars
        rw [Memory.read_cons hm.2]
        simp only [Memory.read]
        split
        · rfl
        · rw [if_neg (by omega)]
      · next h1 h2 =>
        simp only [Memory.read, ih hm.2]
        split
        · rw [if_neg (by omega)]
        · rfl

/-- A read after a write gives the byte written at its own address and what was there at every other (R66). -/
theorem Memory.read_write {m : Memory} {a k : Nat} {b : Byte} (hm : m.wf font = true) :
    (m.write font a b).read font k = if k = a then b else m.read font k := Memory.read_write_from hm

/-- A sequence of at most 4096 writes: address `a12(addr + j)` reads as byte `j`. -/
theorem Memory.read_writeBytes_at {m : Memory} {addr : Nat} {bs : List Byte} {j : Nat} (hm : m.wf font = true)
    (hlen : bs.length ≤ Config.memSize) (hj : j < bs.length) :
    (m.writeBytes font addr bs).read font (a12 (addr + j)) = bs[j] ∧
      ∀ k, (∀ i, i < bs.length → k ≠ a12 (addr + i)) →
        (m.writeBytes font addr bs).read font k = m.read font k := by
  induction bs generalizing m addr j with
  | nil => exact absurd hj (by simp)
  | cons b bs ih =>
    have hw : (m.write font (a12 addr) b).wf font = true := Memory.write_wf hm (a12_lt addr)
    have hlen' : bs.length + 1 ≤ 4096 := hlen
    have hother : ∀ k, (∀ i, i < bs.length → k ≠ a12 (addr + 1 + i)) →
        (Memory.writeBytes font (m.write font (a12 addr) b) (addr + 1) bs).read font k =
          (m.write font (a12 addr) b).read font k := by
      intro k hk
      cases bs with
      | nil => rfl
      | cons c cs => exact (ih (j := 0) hw (by simp_all [Config.memSize]; omega) (by simp)).2 k hk
    constructor
    · cases j with
      | zero =>
        simp only [Nat.add_zero, Memory.writeBytes, List.getElem_cons_zero]
        rw [hother, Memory.read_write hm, if_pos rfl]
        intro i hi
        simp only [a12, Config.memSize]
        omega
      | succ j =>
        have := (ih (j := j) (addr := addr + 1) hw (by simp only [Config.memSize]; omega) (by simpa using hj)).1
        simpa only [Memory.writeBytes, List.getElem_cons_succ, Nat.add_assoc, Nat.add_comm 1] using this
    · intro k hk
      simp only [Memory.writeBytes]
      rw [hother, Memory.read_write hm, if_neg]
      · simpa using hk 0 (by simp)
      · intro i hi
        simpa only [Nat.add_assoc, Nat.add_comm 1] using hk (i + 1) (by simpa using hi)

/-- What a sequence of writes leaves alone: every address that is none of `a12(addr + j)`. -/
theorem Memory.read_writeBytes_other {m : Memory} {addr : Nat} {bs : List Byte} {k : Nat} (hm : m.wf font = true)
    (hk : ∀ i, i < bs.length → k ≠ a12 (addr + i)) : (m.writeBytes font addr bs).read font k = m.read font k := by
  induction bs generalizing m addr with
  | nil => rfl
  | cons b bs ih =>
    simp only [Memory.writeBytes]
    rw [ih (Memory.write_wf hm (a12_lt addr)), Memory.read_write hm, if_neg]
    · simpa using hk 0 (by simp)
    · intro i hi
      simpa only [Nat.add_assoc, Nat.add_comm 1] using hk (i + 1) (by simpa using hi)

/-- A canonical memory reads as the reset contents outside the address space. -/
theorem Memory.read_outside {m : Memory} {k lo : Nat} (hm : Memory.wfFrom font lo m = true) (hk : Config.memSize ≤ k) :
    m.read font k = 0 := by
  induction m generalizing lo with
  | nil =>
    have : Config.memSize = 4096 := rfl
    exact dif_neg (by omega)
  | cons e m ih =>
    simp only [Memory.wfFrom, Bool.and_eq_true, decide_eq_true_eq] at hm
    simp only [Memory.read]
    rw [if_neg (by omega), ih hm.2]

/-! ### Memory in a state -/

variable (s : State)

/-- Every write a step makes keeps the canonical form. -/
theorem State.memWf_memWriteBytes {a : Nat} {bs : List Byte} (h : s.memWf = true) :
    (s.memWriteBytes a bs).memWf = true := Memory.writeBytes_wf h

/-- What one `MemWrite` writes, and that it writes nothing else (R61, R62, R66). -/
theorem State.byteAt_memWriteBytes_one {a k : Nat} {b : Byte} (h : s.memWf = true) :
    (s.memWriteBytes a [b]).byteAt k = if k = a12 a then b else s.byteAt k := Memory.read_write h

/-- A sequence of at most 4096 writes: address `a12(a + j)` reads as byte `j`. -/
theorem State.byteAt_memWriteBytes {a j : Nat} {bs : List Byte} (h : s.memWf = true)
    (hlen : bs.length ≤ Config.memSize) (hj : j < bs.length) :
    (s.memWriteBytes a bs).byteAt (a12 (a + j)) = bs[j] := (Memory.read_writeBytes_at h hlen hj).1

/-- What a sequence of writes leaves alone: every address that is none of `a12(a + j)`. -/
theorem State.byteAt_memWriteBytes_other {a k : Nat} {bs : List Byte} (h : s.memWf = true)
    (hk : ∀ i, i < bs.length → k ≠ a12 (a + i)) : (s.memWriteBytes a bs).byteAt k = s.byteAt k :=
  Memory.read_writeBytes_other h hk

/-- Reset memory: FONT below 0x050, 0x00 above (R43). -/
theorem State.byteAt_resetWith (F : Font) (a : Nat) : (State.resetWith F).byteAt a = resetByte F a := rfl

/-- Memory after a full reset is the reset memory of the same FONT (R280). -/
theorem State.byteAt_fullReset (a : Nat) : s.fullReset.byteAt a = resetByte s.font a := rfl

/-- Reset memory is canonical, whatever FONT is. -/
@[simp] theorem State.memWf_fullReset : s.fullReset.memWf = true := rfl

end Sys2Proof.Machine
end

