-- ==== Sys2Proof/Laws/Registers.lean ====
section
/-! SUPPORT. The laws of the register file, the stack and the shared operations over them. -/

namespace Sys2Proof.Machine
variable (s : State)

/-- A read after a write: the register written reads as the byte, every other as before (R22). -/
theorem State.readV_writeV (x r : RegIdx) (b : Byte) :
    (s.writeV x b).readV r = if r = x then b else s.readV r := by
  simp only [State.readV, State.writeV, Vector.getElem_set]
  by_cases h : r = x
  · subst h; simp
  · rw [if_neg (fun e => h (BitVec.eq_of_toNat_eq e.symm)), if_neg h]

@[simp] theorem State.readV_writeV_self (x : RegIdx) (b : Byte) : (s.writeV x b).readV x = b := by
  rw [State.readV_writeV, if_pos rfl]

@[simp] theorem State.readV_writeV_ne {x r : RegIdx} (b : Byte) (h : r ≠ x) : (s.writeV x b).readV r = s.readV r := by
  rw [State.readV_writeV, if_neg h]

/-- Result first, flag second: VF reads as the flag, x as the result unless it is VF (R118). -/
theorem State.readV_writeFlagged (x r : RegIdx) (b : Byte) (f : Bool) :
    (s.writeFlagged x b f).readV r = if r = vfIdx then flagByte f else if r = x then b else s.readV r := by
  simp only [State.writeFlagged, State.readV_writeV]

/-- Two register files that read the same are the same. -/
theorem State.v_ext {s t : State} (h : ∀ r, s.readV r = t.readV r) : s.v = t.v := by
  apply Vector.ext
  intro k hk
  have := h (BitVec.ofNat 4 k)
  simpa [State.readV, Nat.mod_eq_of_lt hk] using this

/-- LoadMemory's loop: V[k] for k below the count comes from `addr + k`, every other register is kept (R185). -/
theorem State.readV_loadRegs (addr n : Nat) (hn : n ≤ 16) (r : RegIdx) :
    (s.loadRegs addr n).readV r = if r.toNat < n then s.memRead (addr + r.toNat) else s.readV r := by
  induction n with
  | zero => simp [State.loadRegs]
  | succ n ih =>
    simp only [State.loadRegs, State.readV_writeV]
    have hr : (r = BitVec.ofNat 4 n) ↔ r.toNat = n := by
      constructor
      · intro h; rw [h]; simp; omega
      · intro h; apply BitVec.eq_of_toNat_eq; simp; omega
    by_cases h : r.toNat = n
    · rw [if_pos (hr.2 h), if_pos (by omega), h]
    · rw [if_neg (fun e => h (hr.1 e)), ih (by omega)]
      by_cases h' : r.toNat < n
      · rw [if_pos h', if_pos (by omega)]
      · rw [if_neg h', if_neg (by omega)]

/-- LoadMemory's loop writes general registers only. -/
theorem State.loadRegs_eq (addr n : Nat) : ∃ v, s.loadRegs addr n = { s with v := v } := by
  induction n with
  | zero => exact ⟨s.v, rfl⟩
  | succ n ih => obtain ⟨v, hv⟩ := ih; exact ⟨_, by rw [State.loadRegs, hv]; rfl⟩

/-- V[0..x] as a list: entry k is V[k] (R184). -/
theorem State.regBytes_length (x : RegIdx) : (s.regBytes x).length = x.toNat + 1 := by
  have := x.isLt
  simp [State.regBytes, regCount]
  omega

theorem State.regBytes_getElem (x : RegIdx) (k : Nat) (hk : k < (s.regBytes x).length) :
    (s.regBytes x)[k] = s.readV (BitVec.ofNat 4 k) := by
  have h1 := s.regBytes_length x
  have h2 := x.isLt
  have h3 : k % 16 = k := Nat.mod_eq_of_lt (by omega)
  simp [State.regBytes, State.readV, h3]

@[simp] theorem State.indexAfterBlock_eq (x : RegIdx) : s.indexAfterBlock x = s.I := rfl

/-- A pop after a push gives the word pushed, when the stack was not full (R28). -/
theorem State.readStack_push (w : Word) (k : BitVec 5) :
    (s.push w).readStack k = if k.toNat % 16 = s.sp.toNat % 16 then w else s.readStack k := by
  simp only [State.readStack, State.push, Vector.getElem_set, eq_comm]

/-! ### What the operations that end a step do -/

theorem continueAt_eq (w : Word) : continueAt w s = .next ((s.setPc w).setResult .continued) := rfl
theorem advance_eq : advance s = .next ((s.setPc (s.pc + 2)).setResult .continued) := rfl
theorem skipIf_eq (c : Bool) :
    skipIf c s = .next ((s.setPc (if c then s.pc + 4 else s.pc + 2)).setResult .continued) := rfl
theorem waitHere_eq : waitHere s = .next (s.setResult .waiting) := rfl

/-- Taking a fault: the latch and `result`, and nothing else (R244). -/
theorem raise_eq (f : FaultKind) (w : Word) : raise f w s = .next ((s.latchFault f w).setResult .faulted) := rfl

/-- A byte that is a flag. -/
theorem flagByte_eq_one (b : Bool) : flagByte b = 1 ↔ b = true := by cases b <;> decide
theorem flagByte_eq_zero (b : Bool) : flagByte b = 0 ↔ b = false := by cases b <;> decide

/-- `mapNext` answers next exactly when its outcome does. -/
theorem mapNext_eq_next {f : State → State} {o : Result} {t : State} :
    mapNext f o = .next t ↔ ∃ u, o = .next u ∧ f u = t := by
  cases o <;> simp [mapNext]

end Sys2Proof.Machine
end

