-- ==== Sys2Proof/Laws/Cycle.lean ====
section
/-! SUPPORT. What each phase of a clock cycle does to each field (R290), and the three forms of a cycle. -/

namespace Sys2Proof.Machine
variable (s : State) (p : Ports) (drew : Bool) (w : Word)

/-! ### loadPort -/

@[simp] theorem State.v_loadPort : (s.loadPort p).v = s.v := by
  unfold State.loadPort; split <;> rfl
@[simp] theorem State.I_loadPort : (s.loadPort p).I = s.I := by
  unfold State.loadPort; split <;> rfl
@[simp] theorem State.pc_loadPort : (s.loadPort p).pc = s.pc := by
  unfold State.loadPort; split <;> rfl
@[simp] theorem State.stack_loadPort : (s.loadPort p).stack = s.stack := by
  unfold State.loadPort; split <;> rfl
@[simp] theorem State.sp_loadPort : (s.loadPort p).sp = s.sp := by
  unfold State.loadPort; split <;> rfl
@[simp] theorem State.dt_loadPort : (s.loadPort p).dt = s.dt := by
  unfold State.loadPort; split <;> rfl
@[simp] theorem State.st_loadPort : (s.loadPort p).st = s.st := by
  unfold State.loadPort; split <;> rfl
@[simp] theorem State.fb_loadPort : (s.loadPort p).fb = s.fb := by
  unfold State.loadPort; split <;> rfl
@[simp] theorem State.dirty_loadPort : (s.loadPort p).dirty = s.dirty := by
  unfold State.loadPort; split <;> rfl
@[simp] theorem State.faultCode_loadPort : (s.loadPort p).faultCode = s.faultCode := by
  unfold State.loadPort; split <;> rfl
@[simp] theorem State.faultWord_loadPort : (s.loadPort p).faultWord = s.faultWord := by
  unfold State.loadPort; split <;> rfl
@[simp] theorem State.faultPc_loadPort : (s.loadPort p).faultPc = s.faultPc := by
  unfold State.loadPort; split <;> rfl
@[simp] theorem State.result_loadPort : (s.loadPort p).result = s.result := by
  unfold State.loadPort; split <;> rfl
@[simp] theorem State.inputs_loadPort : (s.loadPort p).inputs = s.inputs := by
  unfold State.loadPort; split <;> rfl
@[simp] theorem State.cycle_loadPort : (s.loadPort p).cycle = s.cycle := by
  unfold State.loadPort; split <;> rfl
@[simp] theorem State.font_loadPort : (s.loadPort p).font = s.font := by
  unfold State.loadPort; split <;> rfl
@[simp] theorem State.ports_loadPort : (s.loadPort p).ports = s.ports := by
  unfold State.loadPort; split <;> rfl
@[simp] theorem State.readV_loadPort (r : RegIdx) : (s.loadPort p).readV r = s.readV r := by
  unfold State.loadPort; split <;> rfl
@[simp] theorem State.readStack_loadPort (k : BitVec 5) : (s.loadPort p).readStack k = s.readStack k := by
  unfold State.loadPort; split <;> rfl

/-! ### clearDirty -/

@[simp] theorem State.mem_clearDirty : (s.clearDirty p).mem = s.mem := by
  unfold State.clearDirty; split <;> rfl
@[simp] theorem State.v_clearDirty : (s.clearDirty p).v = s.v := by
  unfold State.clearDirty; split <;> rfl
@[simp] theorem State.I_clearDirty : (s.clearDirty p).I = s.I := by
  unfold State.clearDirty; split <;> rfl
@[simp] theorem State.pc_clearDirty : (s.clearDirty p).pc = s.pc := by
  unfold State.clearDirty; split <;> rfl
@[simp] theorem State.stack_clearDirty : (s.clearDirty p).stack = s.stack := by
  unfold State.clearDirty; split <;> rfl
@[simp] theorem State.sp_clearDirty : (s.clearDirty p).sp = s.sp := by
  unfold State.clearDirty; split <;> rfl
@[simp] theorem State.dt_clearDirty : (s.clearDirty p).dt = s.dt := by
  unfold State.clearDirty; split <;> rfl
@[simp] theorem State.st_clearDirty : (s.clearDirty p).st = s.st := by
  unfold State.clearDirty; split <;> rfl
@[simp] theorem State.fb_clearDirty : (s.clearDirty p).fb = s.fb := by
  unfold State.clearDirty; split <;> rfl
@[simp] theorem State.dirty_clearDirty : (s.clearDirty p).dirty = if p.dirtyClr then false else s.dirty := by
  unfold State.clearDirty; split <;> rfl
@[simp] theorem State.faultCode_clearDirty : (s.clearDirty p).faultCode = s.faultCode := by
  unfold State.clearDirty; split <;> rfl
@[simp] theorem State.faultWord_clearDirty : (s.clearDirty p).faultWord = s.faultWord := by
  unfold State.clearDirty; split <;> rfl
@[simp] theorem State.faultPc_clearDirty : (s.clearDirty p).faultPc = s.faultPc := by
  unfold State.clearDirty; split <;> rfl
@[simp] theorem State.result_clearDirty : (s.clearDirty p).result = s.result := by
  unfold State.clearDirty; split <;> rfl
@[simp] theorem State.inputs_clearDirty : (s.clearDirty p).inputs = s.inputs := by
  unfold State.clearDirty; split <;> rfl
@[simp] theorem State.cycle_clearDirty : (s.clearDirty p).cycle = s.cycle := by
  unfold State.clearDirty; split <;> rfl
@[simp] theorem State.font_clearDirty : (s.clearDirty p).font = s.font := by
  unfold State.clearDirty; split <;> rfl
@[simp] theorem State.ports_clearDirty : (s.clearDirty p).ports = s.ports := by
  unfold State.clearDirty; split <;> rfl
@[simp] theorem State.readV_clearDirty (r : RegIdx) : (s.clearDirty p).readV r = s.readV r := by
  unfold State.clearDirty; split <;> rfl
@[simp] theorem State.byteAt_clearDirty (a : Nat) : (s.clearDirty p).byteAt a = s.byteAt a := by
  unfold State.clearDirty; split <;> rfl
@[simp] theorem State.memWf_clearDirty : (s.clearDirty p).memWf = s.memWf := by
  unfold State.clearDirty; split <;> rfl
@[simp] theorem State.readStack_clearDirty (k : BitVec 5) : (s.clearDirty p).readStack k = s.readStack k := by
  unfold State.clearDirty; split <;> rfl

/-! ### tickTimers -/

@[simp] theorem State.mem_tickTimers : (s.tickTimers p).mem = s.mem := by
  unfold State.tickTimers; split <;> rfl
@[simp] theorem State.v_tickTimers : (s.tickTimers p).v = s.v := by
  unfold State.tickTimers; split <;> rfl
@[simp] theorem State.I_tickTimers : (s.tickTimers p).I = s.I := by
  unfold State.tickTimers; split <;> rfl
@[simp] theorem State.pc_tickTimers : (s.tickTimers p).pc = s.pc := by
  unfold State.tickTimers; split <;> rfl
@[simp] theorem State.stack_tickTimers : (s.tickTimers p).stack = s.stack := by
  unfold State.tickTimers; split <;> rfl
@[simp] theorem State.sp_tickTimers : (s.tickTimers p).sp = s.sp := by
  unfold State.tickTimers; split <;> rfl
@[simp] theorem State.dt_tickTimers : (s.tickTimers p).dt = if p.tick then decTimer s.dt else s.dt := by
  unfold State.tickTimers; split <;> rfl
@[simp] theorem State.st_tickTimers : (s.tickTimers p).st = if p.tick then decTimer s.st else s.st := by
  unfold State.tickTimers; split <;> rfl
@[simp] theorem State.fb_tickTimers : (s.tickTimers p).fb = s.fb := by
  unfold State.tickTimers; split <;> rfl
@[simp] theorem State.dirty_tickTimers : (s.tickTimers p).dirty = s.dirty := by
  unfold State.tickTimers; split <;> rfl
@[simp] theorem State.faultCode_tickTimers : (s.tickTimers p).faultCode = s.faultCode := by
  unfold State.tickTimers; split <;> rfl
@[simp] theorem State.faultWord_tickTimers : (s.tickTimers p).faultWord = s.faultWord := by
  unfold State.tickTimers; split <;> rfl
@[simp] theorem State.faultPc_tickTimers : (s.tickTimers p).faultPc = s.faultPc := by
  unfold State.tickTimers; split <;> rfl
@[simp] theorem State.result_tickTimers : (s.tickTimers p).result = s.result := by
  unfold State.tickTimers; split <;> rfl
@[simp] theorem State.inputs_tickTimers : (s.tickTimers p).inputs = s.inputs := by
  unfold State.tickTimers; split <;> rfl
@[simp] theorem State.cycle_tickTimers : (s.tickTimers p).cycle = s.cycle := by
  unfold State.tickTimers; split <;> rfl
@[simp] theorem State.font_tickTimers : (s.tickTimers p).font = s.font := by
  unfold State.tickTimers; split <;> rfl
@[simp] theorem State.ports_tickTimers : (s.tickTimers p).ports = s.ports := by
  unfold State.tickTimers; split <;> rfl
@[simp] theorem State.readV_tickTimers (r : RegIdx) : (s.tickTimers p).readV r = s.readV r := by
  unfold State.tickTimers; split <;> rfl
@[simp] theorem State.byteAt_tickTimers (a : Nat) : (s.tickTimers p).byteAt a = s.byteAt a := by
  unfold State.tickTimers; split <;> rfl
@[simp] theorem State.memWf_tickTimers : (s.tickTimers p).memWf = s.memWf := by
  unfold State.tickTimers; split <;> rfl
@[simp] theorem State.readStack_tickTimers (k : BitVec 5) : (s.tickTimers p).readStack k = s.readStack k := by
  unfold State.tickTimers; split <;> rfl

/-! ### updateDirty -/

@[simp] theorem State.mem_updateDirty : (s.updateDirty p drew).mem = s.mem := by
  unfold State.updateDirty; split <;> first | rfl | simp
@[simp] theorem State.v_updateDirty : (s.updateDirty p drew).v = s.v := by
  unfold State.updateDirty; split <;> first | rfl | simp
@[simp] theorem State.I_updateDirty : (s.updateDirty p drew).I = s.I := by
  unfold State.updateDirty; split <;> first | rfl | simp
@[simp] theorem State.pc_updateDirty : (s.updateDirty p drew).pc = s.pc := by
  unfold State.updateDirty; split <;> first | rfl | simp
@[simp] theorem State.stack_updateDirty : (s.updateDirty p drew).stack = s.stack := by
  unfold State.updateDirty; split <;> first | rfl | simp
@[simp] theorem State.sp_updateDirty : (s.updateDirty p drew).sp = s.sp := by
  unfold State.updateDirty; split <;> first | rfl | simp
@[simp] theorem State.dt_updateDirty : (s.updateDirty p drew).dt = s.dt := by
  unfold State.updateDirty; split <;> first | rfl | simp
@[simp] theorem State.st_updateDirty : (s.updateDirty p drew).st = s.st := by
  unfold State.updateDirty; split <;> first | rfl | simp
@[simp] theorem State.fb_updateDirty : (s.updateDirty p drew).fb = s.fb := by
  unfold State.updateDirty; split <;> first | rfl | simp
@[simp] theorem State.dirty_updateDirty : (s.updateDirty p drew).dirty = if drew then true else if p.dirtyClr then false else s.dirty := by
  unfold State.updateDirty; split <;> first | rfl | simp
@[simp] theorem State.faultCode_updateDirty : (s.updateDirty p drew).faultCode = s.faultCode := by
  unfold State.updateDirty; split <;> first | rfl | simp
@[simp] theorem State.faultWord_updateDirty : (s.updateDirty p drew).faultWord = s.faultWord := by
  unfold State.updateDirty; split <;> first | rfl | simp
@[simp] theorem State.faultPc_updateDirty : (s.updateDirty p drew).faultPc = s.faultPc := by
  unfold State.updateDirty; split <;> first | rfl | simp
@[simp] theorem State.result_updateDirty : (s.updateDirty p drew).result = s.result := by
  unfold State.updateDirty; split <;> first | rfl | simp
@[simp] theorem State.inputs_updateDirty : (s.updateDirty p drew).inputs = s.inputs := by
  unfold State.updateDirty; split <;> first | rfl | simp
@[simp] theorem State.cycle_updateDirty : (s.updateDirty p drew).cycle = s.cycle := by
  unfold State.updateDirty; split <;> first | rfl | simp
@[simp] theorem State.font_updateDirty : (s.updateDirty p drew).font = s.font := by
  unfold State.updateDirty; split <;> first | rfl | simp
@[simp] theorem State.ports_updateDirty : (s.updateDirty p drew).ports = s.ports := by
  unfold State.updateDirty; split <;> first | rfl | simp
@[simp] theorem State.readV_updateDirty (r : RegIdx) : (s.updateDirty p drew).readV r = s.readV r := by
  unfold State.updateDirty; split <;> first | rfl | simp
@[simp] theorem State.byteAt_updateDirty (a : Nat) : (s.updateDirty p drew).byteAt a = s.byteAt a := by
  unfold State.updateDirty; split <;> first | rfl | simp
@[simp] theorem State.memWf_updateDirty : (s.updateDirty p drew).memWf = s.memWf := by
  unfold State.updateDirty; split <;> first | rfl | simp
@[simp] theorem State.readStack_updateDirty (k : BitVec 5) : (s.updateDirty p drew).readStack k = s.readStack k := by
  unfold State.updateDirty; split <;> first | rfl | simp

/-! ### afterStep -/

@[simp] theorem State.mem_afterStep : (s.afterStep p drew).mem = s.mem := by
  simp [State.afterStep]
@[simp] theorem State.v_afterStep : (s.afterStep p drew).v = s.v := by
  simp [State.afterStep]
@[simp] theorem State.I_afterStep : (s.afterStep p drew).I = s.I := by
  simp [State.afterStep]
@[simp] theorem State.pc_afterStep : (s.afterStep p drew).pc = s.pc := by
  simp [State.afterStep]
@[simp] theorem State.stack_afterStep : (s.afterStep p drew).stack = s.stack := by
  simp [State.afterStep]
@[simp] theorem State.sp_afterStep : (s.afterStep p drew).sp = s.sp := by
  simp [State.afterStep]
@[simp] theorem State.dt_afterStep : (s.afterStep p drew).dt = if p.tick then decTimer s.dt else s.dt := by
  simp [State.afterStep]
@[simp] theorem State.st_afterStep : (s.afterStep p drew).st = if p.tick then decTimer s.st else s.st := by
  simp [State.afterStep]
@[simp] theorem State.fb_afterStep : (s.afterStep p drew).fb = s.fb := by
  simp [State.afterStep]
@[simp] theorem State.dirty_afterStep : (s.afterStep p drew).dirty = if drew then true else if p.dirtyClr then false else s.dirty := by
  simp [State.afterStep]
@[simp] theorem State.faultCode_afterStep : (s.afterStep p drew).faultCode = s.faultCode := by
  simp [State.afterStep]
@[simp] theorem State.faultWord_afterStep : (s.afterStep p drew).faultWord = s.faultWord := by
  simp [State.afterStep]
@[simp] theorem State.faultPc_afterStep : (s.afterStep p drew).faultPc = s.faultPc := by
  simp [State.afterStep]
@[simp] theorem State.result_afterStep : (s.afterStep p drew).result = s.result := by
  simp [State.afterStep]
@[simp] theorem State.inputs_afterStep : (s.afterStep p drew).inputs = s.inputs.tail := by
  simp [State.afterStep]
@[simp] theorem State.cycle_afterStep : (s.afterStep p drew).cycle = s.cycle + 1 := by
  simp [State.afterStep]
@[simp] theorem State.font_afterStep : (s.afterStep p drew).font = s.font := by
  simp [State.afterStep]
@[simp] theorem State.readV_afterStep (r : RegIdx) : (s.afterStep p drew).readV r = s.readV r := by
  simp [State.afterStep]
@[simp] theorem State.byteAt_afterStep (a : Nat) : (s.afterStep p drew).byteAt a = s.byteAt a := by
  simp [State.afterStep]
@[simp] theorem State.memWf_afterStep : (s.afterStep p drew).memWf = s.memWf := by
  simp [State.afterStep]
@[simp] theorem State.readStack_afterStep (k : BitVec 5) : (s.afterStep p drew).readStack k = s.readStack k := by
  simp [State.afterStep]

/-! ### placeWord -/

@[simp] theorem State.v_placeWord : (s.placeWord w).v = s.v := by
  rfl
@[simp] theorem State.I_placeWord : (s.placeWord w).I = s.I := by
  rfl
@[simp] theorem State.pc_placeWord : (s.placeWord w).pc = s.pc := by
  rfl
@[simp] theorem State.stack_placeWord : (s.placeWord w).stack = s.stack := by
  rfl
@[simp] theorem State.sp_placeWord : (s.placeWord w).sp = s.sp := by
  rfl
@[simp] theorem State.dt_placeWord : (s.placeWord w).dt = s.dt := by
  rfl
@[simp] theorem State.st_placeWord : (s.placeWord w).st = s.st := by
  rfl
@[simp] theorem State.fb_placeWord : (s.placeWord w).fb = s.fb := by
  rfl
@[simp] theorem State.dirty_placeWord : (s.placeWord w).dirty = s.dirty := by
  rfl
@[simp] theorem State.faultCode_placeWord : (s.placeWord w).faultCode = s.faultCode := by
  rfl
@[simp] theorem State.faultWord_placeWord : (s.placeWord w).faultWord = s.faultWord := by
  rfl
@[simp] theorem State.faultPc_placeWord : (s.placeWord w).faultPc = s.faultPc := by
  rfl
@[simp] theorem State.result_placeWord : (s.placeWord w).result = s.result := by
  rfl
@[simp] theorem State.inputs_placeWord : (s.placeWord w).inputs = s.inputs := by
  rfl
@[simp] theorem State.cycle_placeWord : (s.placeWord w).cycle = s.cycle := by
  rfl
@[simp] theorem State.font_placeWord : (s.placeWord w).font = s.font := by
  rfl
@[simp] theorem State.ports_placeWord : (s.placeWord w).ports = s.ports := by
  rfl
@[simp] theorem State.readV_placeWord (r : RegIdx) : (s.placeWord w).readV r = s.readV r := by
  rfl
@[simp] theorem State.readStack_placeWord (k : BitVec 5) : (s.placeWord w).readStack k = s.readStack k := by
  rfl

/-! ### readyToStep -/

@[simp] theorem State.mem_readyToStep : (s.readyToStep).mem = s.mem := by
  rfl
@[simp] theorem State.v_readyToStep : (s.readyToStep).v = s.v := by
  rfl
@[simp] theorem State.I_readyToStep : (s.readyToStep).I = s.I := by
  rfl
@[simp] theorem State.pc_readyToStep : (s.readyToStep).pc = s.pc := by
  rfl
@[simp] theorem State.stack_readyToStep : (s.readyToStep).stack = s.stack := by
  rfl
@[simp] theorem State.sp_readyToStep : (s.readyToStep).sp = s.sp := by
  rfl
@[simp] theorem State.dt_readyToStep : (s.readyToStep).dt = s.dt := by
  rfl
@[simp] theorem State.st_readyToStep : (s.readyToStep).st = s.st := by
  rfl
@[simp] theorem State.fb_readyToStep : (s.readyToStep).fb = s.fb := by
  rfl
@[simp] theorem State.dirty_readyToStep : (s.readyToStep).dirty = s.dirty := by
  rfl
@[simp] theorem State.faultCode_readyToStep : (s.readyToStep).faultCode = 0 := by
  rfl
@[simp] theorem State.faultWord_readyToStep : (s.readyToStep).faultWord = s.faultWord := by
  rfl
@[simp] theorem State.faultPc_readyToStep : (s.readyToStep).faultPc = s.faultPc := by
  rfl
@[simp] theorem State.result_readyToStep : (s.readyToStep).result = s.result := by
  rfl
@[simp] theorem State.cycle_readyToStep : (s.readyToStep).cycle = s.cycle := by
  rfl
@[simp] theorem State.font_readyToStep : (s.readyToStep).font = s.font := by
  rfl
@[simp] theorem State.readV_readyToStep (r : RegIdx) : (s.readyToStep).readV r = s.readV r := by
  rfl
@[simp] theorem State.byteAt_readyToStep (a : Nat) : (s.readyToStep).byteAt a = s.byteAt a := by
  rfl
@[simp] theorem State.memWf_readyToStep : (s.readyToStep).memWf = s.memWf := by
  rfl
@[simp] theorem State.readStack_readyToStep (k : BitVec 5) : (s.readyToStep).readStack k = s.readStack k := by
  rfl

/-! ### applyClears -/

@[simp] theorem State.mem_applyClears : (s.applyClears p).mem = if p.clrMem then [] else s.mem := by
  unfold State.applyClears; cases p.clrMem <;> cases p.clrRegs <;> cases p.clrStack <;> cases p.clrTimers <;> rfl
@[simp] theorem State.v_applyClears : (s.applyClears p).v = if p.clrRegs then State.reset.v else s.v := by
  unfold State.applyClears; cases p.clrMem <;> cases p.clrRegs <;> cases p.clrStack <;> cases p.clrTimers <;> rfl
@[simp] theorem State.I_applyClears : (s.applyClears p).I = if p.clrRegs then 0 else s.I := by
  unfold State.applyClears; cases p.clrMem <;> cases p.clrRegs <;> cases p.clrStack <;> cases p.clrTimers <;> rfl
@[simp] theorem State.pc_applyClears : (s.applyClears p).pc = if p.clrRegs then 0x0200 else s.pc := by
  unfold State.applyClears; cases p.clrMem <;> cases p.clrRegs <;> cases p.clrStack <;> cases p.clrTimers <;> rfl
@[simp] theorem State.stack_applyClears : (s.applyClears p).stack = if p.clrStack then State.reset.stack else s.stack := by
  unfold State.applyClears; cases p.clrMem <;> cases p.clrRegs <;> cases p.clrStack <;> cases p.clrTimers <;> rfl
@[simp] theorem State.sp_applyClears : (s.applyClears p).sp = if p.clrStack then 0 else s.sp := by
  unfold State.applyClears; cases p.clrMem <;> cases p.clrRegs <;> cases p.clrStack <;> cases p.clrTimers <;> rfl
@[simp] theorem State.dt_applyClears : (s.applyClears p).dt = if p.clrTimers then 0 else s.dt := by
  unfold State.applyClears; cases p.clrMem <;> cases p.clrRegs <;> cases p.clrStack <;> cases p.clrTimers <;> rfl
@[simp] theorem State.st_applyClears : (s.applyClears p).st = if p.clrTimers then 0 else s.st := by
  unfold State.applyClears; cases p.clrMem <;> cases p.clrRegs <;> cases p.clrStack <;> cases p.clrTimers <;> rfl
@[simp] theorem State.fb_applyClears : (s.applyClears p).fb = s.fb := by
  unfold State.applyClears; cases p.clrMem <;> cases p.clrRegs <;> cases p.clrStack <;> cases p.clrTimers <;> rfl
@[simp] theorem State.dirty_applyClears : (s.applyClears p).dirty = s.dirty := by
  unfold State.applyClears; cases p.clrMem <;> cases p.clrRegs <;> cases p.clrStack <;> cases p.clrTimers <;> rfl
@[simp] theorem State.faultCode_applyClears : (s.applyClears p).faultCode = s.faultCode := by
  unfold State.applyClears; cases p.clrMem <;> cases p.clrRegs <;> cases p.clrStack <;> cases p.clrTimers <;> rfl
@[simp] theorem State.faultWord_applyClears : (s.applyClears p).faultWord = s.faultWord := by
  unfold State.applyClears; cases p.clrMem <;> cases p.clrRegs <;> cases p.clrStack <;> cases p.clrTimers <;> rfl
@[simp] theorem State.faultPc_applyClears : (s.applyClears p).faultPc = s.faultPc := by
  unfold State.applyClears; cases p.clrMem <;> cases p.clrRegs <;> cases p.clrStack <;> cases p.clrTimers <;> rfl
@[simp] theorem State.result_applyClears : (s.applyClears p).result = s.result := by
  unfold State.applyClears; cases p.clrMem <;> cases p.clrRegs <;> cases p.clrStack <;> cases p.clrTimers <;> rfl
@[simp] theorem State.inputs_applyClears : (s.applyClears p).inputs = s.inputs := by
  unfold State.applyClears; cases p.clrMem <;> cases p.clrRegs <;> cases p.clrStack <;> cases p.clrTimers <;> rfl
@[simp] theorem State.cycle_applyClears : (s.applyClears p).cycle = s.cycle := by
  unfold State.applyClears; cases p.clrMem <;> cases p.clrRegs <;> cases p.clrStack <;> cases p.clrTimers <;> rfl
@[simp] theorem State.font_applyClears : (s.applyClears p).font = s.font := by
  unfold State.applyClears; cases p.clrMem <;> cases p.clrRegs <;> cases p.clrStack <;> cases p.clrTimers <;> rfl
@[simp] theorem State.ports_applyClears : (s.applyClears p).ports = s.ports := by
  unfold State.applyClears; cases p.clrMem <;> cases p.clrRegs <;> cases p.clrStack <;> cases p.clrTimers <;> rfl

/-! ### The phases -/

/-- A decremented timer, floored at 0 (R255). -/
theorem decTimer_toNat (t : Byte) : (decTimer t).toNat = t.toNat - 1 := by
  have := t.isLt
  unfold decTimer
  split
  · next h => subst h; rfl
  · next h =>
    have : t.toNat ≠ 0 := fun e => h (BitVec.eq_of_toNat_eq e)
    rw [BitVec.toNat_sub]
    change (2 ^ 8 - 1 + t.toNat) % 2 ^ 8 = _
    omega

/-- The load port keeps the canonical form of memory. -/
theorem State.loadPort_wf (h : s.memWf = true) : (s.loadPort p).memWf = true := by
  unfold State.loadPort
  split
  · exact State.memWf_memWriteBytes s h
  · exact h

/-- A clear keeps the canonical form of memory. -/
theorem State.applyClears_wf (h : s.memWf = true) : (s.applyClears p).memWf = true := by
  have h' : s.mem.wf s.font = true := h
  rw [State.memWf, State.mem_applyClears, State.font_applyClears]
  split
  · rfl
  · exact h'

/-- What `clr_mem` leaves in memory: the reset contents, with the block's FONT; without it, what was there (R283). -/
theorem State.byteAt_applyClears (a : Nat) :
    (s.applyClears p).byteAt a = if p.clrMem = true then resetByte s.font a else s.byteAt a := by
  rw [State.byteAt, State.mem_applyClears, State.font_applyClears]
  split <;> rfl

/-- What the load port writes, and that it writes nothing else (R287). -/
theorem State.read_loadPort (h : s.memWf = true) (a : Nat) :
    (s.loadPort p).byteAt a =
      if p.ldWe = true ∧ p.ldOff.toNat < 3584 ∧ a = 0x200 + p.ldOff.toNat then p.ldData else s.byteAt a := by
  unfold State.loadPort
  by_cases hc : p.ldWe = true ∧ p.ldOff.toNat < 3584
  · have : (p.ldWe && decide (p.ldOff.toNat < Config.romMax)) = true := by simp [hc.1, hc.2]
    have h12 : a12 (0x200 + p.ldOff.toNat) = 0x200 + p.ldOff.toNat := Nat.mod_eq_of_lt (by simp only [Config.memSize]; omega)
    rw [this, if_pos rfl]
    simp only [State.byteAt_memWriteBytes_one s h, h12, hc.1, hc.2, true_and]
  · have : (p.ldWe && decide (p.ldOff.toNat < Config.romMax)) = false := by
      simp only [Bool.and_eq_false_iff, decide_eq_false_iff_not]
      by_contra hn
      simp only [not_or, Bool.not_eq_false, not_not] at hn
      exact hc hn
    rw [this, if_neg (by simp), if_neg (fun e => hc ⟨e.1, e.2.1⟩)]

/-- A word placed where the machine fetches is the word it fetches, bytes and addresses as R110 has them. -/
theorem State.fetchWord_placeWord (h : s.memWf = true) : (s.placeWord w).fetchWord = w := by
  have hne : a12 s.pc.toNat ≠ a12 (s.pc + 1).toNat := by
    have := s.pc.isLt
    simp only [a12, Config.memSize, BitVec.toNat_add, show BitVec.toNat (1 : Word) = 1 from rfl]
    omega
  have h' := State.memWf_memWriteBytes s (a := s.pc.toNat) (bs := [hiByte w]) h
  simp only [State.fetchWord, State.memRead, State.placeWord, State.pc_memWriteBytes]
  rw [State.byteAt_memWriteBytes_one _ h', if_neg hne, State.byteAt_memWriteBytes_one _ h, if_pos rfl,
    State.byteAt_memWriteBytes_one _ h', if_pos rfl, append_hi_lo]

/-- A cycle without a load leaves the load port's state as it is. -/
theorem State.loadPort_of_not_ldWe (h : p.ldWe = false) : s.loadPort p = s := by simp [State.loadPort, h]

/-- The ports of a state made ready: no reset, no clear, no load, and `step` asserted. -/
theorem State.ports_readyToStep_running :
    s.readyToStep.ports.Steps ∧ s.readyToStep.ports.ldWe = false := by
  cases hi : s.inputs <;>
    simp [State.ports, State.readyToStep, hi, Ports.running, Ports.Steps, Ports.NoReset, Ports.anyClear]

/-- A cycle under full reset (R281). -/
theorem clockCycle_of_rst (h : p.rst = true) : clockCycle p s = .next s.fullReset.endCycle := by
  simp [clockCycle, h]

/-- A cycle with a partial clear (R284). -/
theorem clockCycle_of_clear (h : p.rst = false) (hc : p.anyClear = true) :
    clockCycle p s = .next (((s.applyClears p).clearDirty p).setResult .idle).endCycle := by
  simp [clockCycle, h, hc]

/-- Every other cycle: load, step, tick, DIRTY (R290). -/
theorem clockCycle_of_run (h : p.rst = false) (hc : p.anyClear = false) :
    clockCycle p s =
      mapNext (State.afterStep p (((s.loadPort p).executes p).any marksFrame)) (stepPhase p (s.loadPort p)) := by
  simp [clockCycle, h, hc]

/-- The instruction a cycle's step executes, when it executes one. -/
theorem State.executes_eq_some {i : Instr} :
    s.executes p = some i ↔ p.step = true ∧ s.faultCode = 0 ∧ decode s.fetchWord = some i := by
  unfold State.executes
  by_cases h : (p.step && s.faultCode == 0) = true
  · rw [if_pos h]
    simp only [Bool.and_eq_true, beq_iff_eq] at h
    simp [h.1, h.2]
  · rw [if_neg h]
    simp only [Bool.and_eq_true, beq_iff_eq, not_and] at h
    constructor
    · intro h'; exact absurd h' (by simp)
    · rintro ⟨h1, h2, -⟩; exact absurd h2 (h h1)

/-- The step of a block without a fault, on a word that decodes (R113). -/
theorem runStep_of_decode {i : Instr} (h : s.faultCode = 0) (hd : decode s.fetchWord = some i) : runStep s = exec i s := by
  simp [runStep, h, hd]

/-- The step of a block without a fault, on a word that does not decode (R111). -/
theorem runStep_of_none (h : s.faultCode = 0) (hd : decode s.fetchWord = none) :
    runStep s = raise .invalidInstruction s.fetchWord s := by
  simp [runStep, h, hd]

/-- The step of a faulted block (R246). -/
theorem runStep_of_faulted (h : s.faultCode ≠ 0) : runStep s = .next (s.setResult .idle) := by
  simp only [runStep, if_neg h]

end Sys2Proof.Machine
end

