-- ==== Sys2Proof/Laws/Framebuffer.lean ====
section
/-! SUPPORT. The laws of the framebuffer and what Draw's loops compute: a pixel is inverted exactly when one set sprite
bit lands on it, and the collision says that one of those pixels was on (R202, R203). -/

namespace Sys2Proof.Machine

/-- A toggle inverts its own pixel and leaves every other alone. -/
theorem Framebuffer.pixel_toggle (fb : Framebuffer) (r r' : Fin 32) (c c' : Fin 64) :
    (fb.toggle r c).pixel r' c' = if r' = r ∧ c' = c then !fb.pixel r' c' else fb.pixel r' c' := by
  by_cases hr : r' = r
  · subst hr
    by_cases hc : c' = c
    · subst hc
      simp [Framebuffer.pixel, Framebuffer.toggle]
    · have : c.val ≠ c'.val := fun e => hc (Fin.ext e.symm)
      simp [Framebuffer.pixel, Framebuffer.toggle, this, hc]
  · have : r.val ≠ r'.val := fun e => hr (Fin.ext e.symm)
    simp [Framebuffer.pixel, Framebuffer.toggle, this, hr]

@[simp] theorem Framebuffer.pixel_blank (r : Fin 32) (c : Fin 64) : Framebuffer.blank.pixel r c = false := by
  simp [Framebuffer.pixel, Framebuffer.blank]

/-- Two framebuffers with the same pixels are the same. -/
theorem Framebuffer.ext {a b : Framebuffer} (h : ∀ r c, a.pixel r c = b.pixel r c) : a = b := by
  apply Vector.ext; intro r hr
  apply Vector.ext; intro c hc
  exact h ⟨r, hr⟩ ⟨c, hc⟩

/-- The eight column offsets are distinct modulo 64 (R203). -/
theorem drawColOf_inj {vx : Byte} {j k : Nat} (hj : j < 64) (hk : k < 64) (h : drawColOf vx j = drawColOf vx k) : j = k := by
  simp only [drawColOf, Fin.mk.injEq] at h
  omega

/-- The at most 15 row offsets are distinct modulo 32 (R203). -/
theorem drawRowOf_inj {vy : Byte} {j k : Nat} (hj : j < 32) (hk : k < 32) (h : drawRowOf vy j = drawRowOf vy k) : j = k := by
  simp only [drawRowOf, Fin.mk.injEq] at h
  omega

/-- A set bit of the first `k` columns of a row lands on the pixel (r', c') (R202). -/
def ColHits (sprite vx : Byte) (r : Fin 32) (k : Nat) (r' : Fin 32) (c' : Fin 64) : Prop :=
  ∃ col, col < k ∧ spriteBit sprite col = true ∧ r' = r ∧ c' = drawColOf vx col

theorem colHits_succ {sprite vx : Byte} {r r' : Fin 32} {k : Nat} {c' : Fin 64} :
    ColHits sprite vx r (k + 1) r' c' ↔
      ColHits sprite vx r k r' c' ∨ (spriteBit sprite k = true ∧ r' = r ∧ c' = drawColOf vx k) := by
  constructor
  · rintro ⟨col, h1, h⟩
    rcases Nat.lt_succ_iff_lt_or_eq.mp h1 with h' | h'
    · exact .inl ⟨col, h', h⟩
    · exact .inr (h' ▸ h)
  · rintro (⟨col, h1, h⟩ | h)
    · exact ⟨col, by omega, h⟩
    · exact ⟨k, by omega, h⟩

/-- The first `k` columns of a row: a pixel is inverted iff a set bit lands on it. -/
theorem drawCols_pixel (sprite vx : Byte) (r : Fin 32) {k : Nat} (hk : k ≤ 8) (a : Framebuffer × Bool) (r' : Fin 32)
    (c' : Fin 64) :
    (ColHits sprite vx r k r' c' → (drawCols sprite vx r k a).1.pixel r' c' = !a.1.pixel r' c') ∧
      (¬ ColHits sprite vx r k r' c' → (drawCols sprite vx r k a).1.pixel r' c' = a.1.pixel r' c') := by
  induction k with
  | zero => exact ⟨fun ⟨_, h, _⟩ => absurd h (Nat.not_lt_zero _), fun _ => rfl⟩
  | succ k ih =>
    have ih := ih (by omega)
    simp only [colHits_succ, drawCols]
    by_cases hb : spriteBit sprite k = true
    · rw [if_pos hb, drawPixel, Framebuffer.pixel_toggle]
      by_cases hhit : r' = r ∧ c' = drawColOf vx k
      · have hno : ¬ ColHits sprite vx r k r' c' := by
          rintro ⟨col, h1, -, -, h4⟩
          have := drawColOf_inj (vx := vx) (by omega) (by omega) (h4.symm.trans hhit.2)
          omega
        rw [if_pos hhit, ih.2 hno]
        exact ⟨fun _ => rfl, fun h => absurd (Or.inr ⟨hb, hhit⟩) h⟩
      · rw [if_neg hhit]
        exact ⟨fun h => ih.1 (h.resolve_right fun h => hhit h.2), fun h => ih.2 fun h' => h (.inl h')⟩
    · rw [if_neg hb]
      exact ⟨fun h => ih.1 (h.resolve_right fun h => hb h.1), fun h => ih.2 fun h' => h (.inl h')⟩

/-- The first `k` columns of a row: the collision is raised iff a set bit lands on a pixel that was on. -/
theorem drawCols_collide (sprite vx : Byte) (r : Fin 32) {k : Nat} (hk : k ≤ 8) (a : Framebuffer × Bool) :
    (drawCols sprite vx r k a).2 = true ↔
      a.2 = true ∨ ∃ col, col < k ∧ spriteBit sprite col = true ∧ a.1.pixel r (drawColOf vx col) = true := by
  induction k with
  | zero => simp [drawCols]
  | succ k ih =>
    have ih := ih (by omega)
    have hpix : (drawCols sprite vx r k a).1.pixel r (drawColOf vx k) = a.1.pixel r (drawColOf vx k) := by
      apply (drawCols_pixel sprite vx r (by omega) a r _).2
      rintro ⟨col, h1, -, -, h4⟩
      have := drawColOf_inj (vx := vx) (by omega) (by omega) h4
      omega
    by_cases hb : spriteBit sprite k = true
    · simp only [drawCols, hb, if_true, drawPixel, Bool.or_eq_true, ih, hpix]
      constructor
      · rintro ((h | ⟨col, h1, h⟩) | h)
        · exact .inl h
        · exact .inr ⟨col, by omega, h⟩
        · exact .inr ⟨k, by omega, hb, h⟩
      · rintro (h | ⟨col, h1, h2, h3⟩)
        · exact .inl (.inl h)
        · rcases Nat.lt_succ_iff_lt_or_eq.mp h1 with h | h
          · exact .inl (.inr ⟨col, h, h2, h3⟩)
          · exact .inr (h ▸ h3)
    · simp only [drawCols, hb]
      rw [if_neg (by simp), ih]
      constructor
      · rintro (h | ⟨col, h1, h⟩)
        · exact .inl h
        · exact .inr ⟨col, by omega, h⟩
      · rintro (h | ⟨col, h1, h2, h3⟩)
        · exact .inl h
        · rcases Nat.lt_succ_iff_lt_or_eq.mp h1 with h | h
          · exact .inr ⟨col, h, h2, h3⟩
          · exact absurd (h ▸ h2) hb

/-- Some set sprite bit of the first `n` rows lands on the pixel (r, c) (R202). -/
def SpriteHits (byteAt : Nat → Byte) (addr : Nat) (vx vy : Byte) (n : Nat) (r : Fin 32) (c : Fin 64) : Prop :=
  ∃ row col, row < n ∧ col < 8 ∧ spriteBit (byteAt (a12 (addr + row))) col = true ∧
    r = drawRowOf vy row ∧ c = drawColOf vx col

theorem spriteHits_succ {byteAt : Nat → Byte} {addr : Nat} {vx vy : Byte} {n : Nat} {r : Fin 32} {c : Fin 64} :
    SpriteHits byteAt addr vx vy (n + 1) r c ↔
      SpriteHits byteAt addr vx vy n r c ∨ ColHits (byteAt (a12 (addr + n))) vx (drawRowOf vy n) 8 r c := by
  constructor
  · rintro ⟨row, col, h1, h2, h3, h4, h5⟩
    rcases Nat.lt_succ_iff_lt_or_eq.mp h1 with h | h
    · exact .inl ⟨row, col, h, h2, h3, h4, h5⟩
    · subst h; exact .inr ⟨col, h2, h3, h4, h5⟩
  · rintro (⟨row, col, h1, h⟩ | ⟨col, h1, h2, h3, h4⟩)
    · exact ⟨row, col, by omega, h⟩
    · exact ⟨n, col, by omega, h1, h2, h3, h4⟩

/-- The whole sprite: a pixel is inverted iff a set bit lands on it (R202, R203). -/
theorem drawRows_pixel (byteAt : Nat → Byte) (addr : Nat) (vx vy : Byte) {n : Nat} (hn : n ≤ 32) (a : Framebuffer × Bool)
    (r' : Fin 32) (c' : Fin 64) :
    (SpriteHits byteAt addr vx vy n r' c' → (drawRows byteAt addr vx vy n a).1.pixel r' c' = !a.1.pixel r' c') ∧
      (¬ SpriteHits byteAt addr vx vy n r' c' → (drawRows byteAt addr vx vy n a).1.pixel r' c' = a.1.pixel r' c') := by
  induction n with
  | zero => exact ⟨fun ⟨_, _, h, _⟩ => absurd h (Nat.not_lt_zero _), fun _ => rfl⟩
  | succ n ih =>
    have ih := ih (by omega)
    have hc := drawCols_pixel (byteAt (a12 (addr + n))) vx (drawRowOf vy n) (le_refl 8) (drawRows byteAt addr vx vy n a) r' c'
    simp only [spriteHits_succ, drawRows]
    by_cases hlast : ColHits (byteAt (a12 (addr + n))) vx (drawRowOf vy n) 8 r' c'
    · have hno : ¬ SpriteHits byteAt addr vx vy n r' c' := by
        rintro ⟨row, col, h1, -, -, h4, -⟩
        obtain ⟨_, _, _, h, _⟩ := hlast
        have := drawRowOf_inj (vy := vy) (by omega) (by omega) (h4.symm.trans h)
        omega
      rw [hc.1 hlast, ih.2 hno]
      exact ⟨fun _ => rfl, fun h => absurd (Or.inr hlast) h⟩
    · rw [hc.2 hlast]
      exact ⟨fun h => ih.1 (h.resolve_right hlast), fun h => ih.2 fun h' => h (.inl h')⟩

/-- The whole sprite: the collision is raised iff a set bit lands on a pixel that was on (R202, R203). -/
theorem drawRows_collide (byteAt : Nat → Byte) (addr : Nat) (vx vy : Byte) {n : Nat} (hn : n ≤ 32) (a : Framebuffer × Bool) :
    (drawRows byteAt addr vx vy n a).2 = true ↔
      a.2 = true ∨ ∃ r c, SpriteHits byteAt addr vx vy n r c ∧ a.1.pixel r c = true := by
  induction n with
  | zero => simp [drawRows, SpriteHits]
  | succ n ih =>
    have ih := ih (by omega)
    simp only [drawRows]
    rw [drawCols_collide _ _ _ (le_refl 8), ih]
    have hpix : ∀ c, (drawRows byteAt addr vx vy n a).1.pixel (drawRowOf vy n) c = a.1.pixel (drawRowOf vy n) c := by
      intro c
      apply (drawRows_pixel byteAt addr vx vy (by omega) a _ c).2
      rintro ⟨row, col, h1, -, -, h4, -⟩
      have := drawRowOf_inj (vy := vy) (by omega) (by omega) h4
      omega
    simp only [hpix]
    constructor
    · rintro ((h | ⟨r, c, ⟨row, col, h1, h⟩, hp⟩) | ⟨col, h1, h2, h3⟩)
      · exact .inl h
      · exact .inr ⟨r, c, ⟨row, col, by omega, h⟩, hp⟩
      · exact .inr ⟨_, _, ⟨n, col, by omega, h1, h2, rfl, rfl⟩, h3⟩
    · rintro (h | ⟨r, c, ⟨row, col, h1, h2, h3, h4, h5⟩, hp⟩)
      · exact .inl (.inl h)
      · rcases Nat.lt_succ_iff_lt_or_eq.mp h1 with h | h
        · exact .inl (.inr ⟨r, c, ⟨row, col, h, h2, h3, h4, h5⟩, hp⟩)
        · subst h; subst h4; subst h5; exact .inr ⟨col, h2, h3, hp⟩

end Sys2Proof.Machine
end

