-- ==== Sys2Proof/Laws/PerInstr.lean ====
section
/-! SUPPORT. The family RowMatch: the word an instruction encodes to selects the instruction's own row of the opcode map,
and that row stands in the map (R92). One lemma per constructor. -/

namespace Sys2Proof.Laws.RowMatch

/-- The encoding of `i` selects the row of R92 that gives `i` its encoding. -/
def Statement (i : Instr) : Prop := i.row ∈ opcodeRows ∧ i.row.selects (encode i) = true

theorem clearDisplay : Statement .clearDisplay := ⟨by decide, by decide⟩
theorem ret : Statement .ret := ⟨by decide, by decide⟩
theorem jump (nnn : Addr12) : Statement (.jump nnn) :=
  ⟨by simp only [Instr.row]; decide, by simp only [Instr.row, encode, selects_address]; decide⟩
theorem call (nnn : Addr12) : Statement (.call nnn) :=
  ⟨by simp only [Instr.row]; decide, by simp only [Instr.row, encode, selects_address]; decide⟩
theorem skipEqual (x : RegIdx) (nn : Byte) : Statement (.skipEqual x nn) :=
  ⟨by simp only [Instr.row]; decide, by simp only [Instr.row, encode, selects_byteOp]; decide⟩
theorem skipNotEqual (x : RegIdx) (nn : Byte) : Statement (.skipNotEqual x nn) :=
  ⟨by simp only [Instr.row]; decide, by simp only [Instr.row, encode, selects_byteOp]; decide⟩
theorem skipEqualXY (x y : RegIdx) : Statement (.skipEqualXY x y) :=
  ⟨by simp only [Instr.row]; decide, by simp only [Instr.row, encode, selects_nibbles]; decide⟩
theorem load (x : RegIdx) (nn : Byte) : Statement (.load x nn) :=
  ⟨by simp only [Instr.row]; decide, by simp only [Instr.row, encode, selects_byteOp]; decide⟩
theorem add (x : RegIdx) (nn : Byte) : Statement (.add x nn) :=
  ⟨by simp only [Instr.row]; decide, by simp only [Instr.row, encode, selects_byteOp]; decide⟩
theorem move (x y : RegIdx) : Statement (.move x y) :=
  ⟨by simp only [Instr.row]; decide, by simp only [Instr.row, encode, selects_nibbles]; decide⟩
theorem or (x y : RegIdx) : Statement (.or x y) :=
  ⟨by simp only [Instr.row]; decide, by simp only [Instr.row, encode, selects_nibbles]; decide⟩
theorem and (x y : RegIdx) : Statement (.and x y) :=
  ⟨by simp only [Instr.row]; decide, by simp only [Instr.row, encode, selects_nibbles]; decide⟩
theorem xor (x y : RegIdx) : Statement (.xor x y) :=
  ⟨by simp only [Instr.row]; decide, by simp only [Instr.row, encode, selects_nibbles]; decide⟩
theorem addXY (x y : RegIdx) : Statement (.addXY x y) :=
  ⟨by simp only [Instr.row]; decide, by simp only [Instr.row, encode, selects_nibbles]; decide⟩
theorem subXY (x y : RegIdx) : Statement (.subXY x y) :=
  ⟨by simp only [Instr.row]; decide, by simp only [Instr.row, encode, selects_nibbles]; decide⟩
theorem shiftRight (x : RegIdx) : Statement (.shiftRight x) :=
  ⟨by simp only [Instr.row]; decide, by simp only [Instr.row, encode, selects_shift]; decide⟩
theorem subYX (x y : RegIdx) : Statement (.subYX x y) :=
  ⟨by simp only [Instr.row]; decide, by simp only [Instr.row, encode, selects_nibbles]; decide⟩
theorem shiftLeft (x : RegIdx) : Statement (.shiftLeft x) :=
  ⟨by simp only [Instr.row]; decide, by simp only [Instr.row, encode, selects_shift]; decide⟩
theorem skipNotEqualXY (x y : RegIdx) : Statement (.skipNotEqualXY x y) :=
  ⟨by simp only [Instr.row]; decide, by simp only [Instr.row, encode, selects_nibbles]; decide⟩
theorem loadI (nnn : Addr12) : Statement (.loadI nnn) :=
  ⟨by simp only [Instr.row]; decide, by simp only [Instr.row, encode, selects_address]; decide⟩
theorem jumpV0 (nnn : Addr12) : Statement (.jumpV0 nnn) :=
  ⟨by simp only [Instr.row]; decide, by simp only [Instr.row, encode, selects_address]; decide⟩
theorem random (x : RegIdx) (nn : Byte) : Statement (.random x nn) :=
  ⟨by simp only [Instr.row]; decide, by simp only [Instr.row, encode, selects_byteOp]; decide⟩
theorem draw (x y : RegIdx) (n : Height) : Statement (.draw x y n) :=
  ⟨by simp only [Instr.row]; decide, by simp only [Instr.row, encode, selects_nibblesOp]; decide⟩
theorem skipKeyPressed (x : RegIdx) : Statement (.skipKeyPressed x) :=
  ⟨by simp only [Instr.row]; decide, by simp only [Instr.row, encode, selects_byte]; decide⟩
theorem skipKeyNotPressed (x : RegIdx) : Statement (.skipKeyNotPressed x) :=
  ⟨by simp only [Instr.row]; decide, by simp only [Instr.row, encode, selects_byte]; decide⟩
theorem loadDelay (x : RegIdx) : Statement (.loadDelay x) :=
  ⟨by simp only [Instr.row]; decide, by simp only [Instr.row, encode, selects_byte]; decide⟩
theorem waitKeyPress (x : RegIdx) : Statement (.waitKeyPress x) :=
  ⟨by simp only [Instr.row]; decide, by simp only [Instr.row, encode, selects_byte]; decide⟩
theorem setDelay (x : RegIdx) : Statement (.setDelay x) :=
  ⟨by simp only [Instr.row]; decide, by simp only [Instr.row, encode, selects_byte]; decide⟩
theorem setSound (x : RegIdx) : Statement (.setSound x) :=
  ⟨by simp only [Instr.row]; decide, by simp only [Instr.row, encode, selects_byte]; decide⟩
theorem addI (x : RegIdx) : Statement (.addI x) :=
  ⟨by simp only [Instr.row]; decide, by simp only [Instr.row, encode, selects_byte]; decide⟩
theorem loadFont (x : RegIdx) : Statement (.loadFont x) :=
  ⟨by simp only [Instr.row]; decide, by simp only [Instr.row, encode, selects_byte]; decide⟩
theorem storeBCD (x : RegIdx) : Statement (.storeBCD x) :=
  ⟨by simp only [Instr.row]; decide, by simp only [Instr.row, encode, selects_byte]; decide⟩
theorem storeRegisters (x : RegIdx) : Statement (.storeRegisters x) :=
  ⟨by simp only [Instr.row]; decide, by simp only [Instr.row, encode, selects_byte]; decide⟩
theorem loadMemory (x : RegIdx) : Statement (.loadMemory x) :=
  ⟨by simp only [Instr.row]; decide, by simp only [Instr.row, encode, selects_byte]; decide⟩

end Sys2Proof.Laws.RowMatch
end

