-- ==== Sys2Proof/Tests/Slice0.lean ====
section
/-! SUPPORT. Tests whose expected results are the vectors of spec/95_test_vectors.md (each test names its vector) or words
written out from the encodings of R92 and R98; the WellFormed smoke; and, for every statement with hypotheses, a concrete
state that meets them together. -/

namespace Sys2Proof.Tests

open Sys2Proof Sys2Proof.Machine

/-! ### Helpers -/

/-- The reset state with one scheduled cycle. -/
def start (p : Ports := {}) : State := { State.reset with inputs := [p] }

/-- Another value of the parameter FONT (R45): 80 bytes that are no glyphs of the table. -/
def otherFont : Font := Vector.replicate 80 0x5A

/-- The reset state of a block with that FONT, with one scheduled cycle. -/
def startOther (p : Ports := {}) : State := { State.resetWith otherFont with inputs := [p] }

/-- A word placed at pc. -/
def placed (w : Nat) (s : State := start) : State := s.withFetchWord 16 w

/-- Something of the state after one cycle. -/
def after (s : State) {α : Type} (f : State → α) : Option α :=
  match step s with
  | .next t => some (f t)
  | _ => none

/-- One byte stored, for the start of a vector. -/
def poke (a : Nat) (b : Byte) (s : State) : State := s.memWriteBytes a [b]

/-! ### Decoding: words written out from R92 and R98, one for every constructor -/

theorem test_decode_family0 : decode 0x00E0 = some .clearDisplay ∧ decode 0x00EE = some .ret := by decide
theorem test_decode_jump_call : decode 0x1208 = some (.jump 0x208) ∧ decode 0x2400 = some (.call 0x400) := by decide
theorem test_decode_skips : decode 0x3105 = some (.skipEqual 1 0x05) ∧ decode 0x4105 = some (.skipNotEqual 1 0x05) ∧
    decode 0x5120 = some (.skipEqualXY 1 2) ∧ decode 0x9120 = some (.skipNotEqualXY 1 2) := by decide
theorem test_decode_load_add : decode 0x632A = some (.load 3 0x2A) ∧ decode 0x732A = some (.add 3 0x2A) := by decide
theorem test_decode_logic : decode 0x8120 = some (.move 1 2) ∧ decode 0x8121 = some (.or 1 2) ∧
    decode 0x8122 = some (.and 1 2) ∧ decode 0x8123 = some (.xor 1 2) := by decide
theorem test_decode_arith : decode 0x8124 = some (.addXY 1 2) ∧ decode 0x8125 = some (.subXY 1 2) ∧
    decode 0x8127 = some (.subYX 1 2) := by decide
/-- The y nibble of a shift is ignored (R93). -/
theorem test_decode_shifts : decode 0x8406 = some (.shiftRight 4) ∧ decode 0x84A6 = some (.shiftRight 4) ∧
    decode 0x840E = some (.shiftLeft 4) ∧ decode 0x84FE = some (.shiftLeft 4) := by decide
theorem test_decode_index : decode 0xA300 = some (.loadI 0x300) ∧ decode 0xB300 = some (.jumpV0 0x300) ∧
    decode 0xC20F = some (.random 2 0x0F) ∧ decode 0xD015 = some (.draw 0 1 5) := by decide
theorem test_decode_keys : decode 0xE59E = some (.skipKeyPressed 5) ∧ decode 0xE5A1 = some (.skipKeyNotPressed 5) := by decide
theorem test_decode_familyF : decode 0xF307 = some (.loadDelay 3) ∧ decode 0xF20A = some (.waitKeyPress 2) ∧
    decode 0xF115 = some (.setDelay 1) ∧ decode 0xF118 = some (.setSound 1) ∧ decode 0xF31E = some (.addI 3) ∧
    decode 0xF029 = some (.loadFont 0) ∧ decode 0xF733 = some (.storeBCD 7) ∧ decode 0xF255 = some (.storeRegisters 2) ∧
    decode 0xFF65 = some (.loadMemory 15) := by decide
/-- High byte first (R63); the bytes after an instruction are handed back. -/
theorem test_decode_bytes : decodeBytes [0x63, 0x2A, 0x01] = some (.load 3 0x2A, [0x01]) ∧ decodeBytes [0x63] = none ∧
    decodeTableWord 16 0xD123 = some (.draw 1 2 3) := by decide
theorem test_encode : encode (.shiftRight 4) = 0x8406 ∧ encode (.draw 0 1 5) = 0xD015 ∧ encodeBytes (.jump 0x208) = [0x12, 0x08] := by decide
/-- The assembler forms of R98. -/
theorem test_asm : asm (.draw 0 1 5) = "Draw V0, V1, 5" ∧ asm (.skipEqual 1 0x05) = "SkipEqual V1, 0x05" ∧
    asm (.jump 0x208) = "Jump 0x208" ∧ disassemble 0x0000 = ".word 0x0000" := by decide

/-! ### WellFormed smoke: ill-formed terms are refused, well-formed ones are not -/

/-- X1–X10: the invalid words are refused by the check and by the decoder. -/
theorem test_wellformed_refuses_words : [0x0123#16, 0x0000#16, 0x00E1#16, 0x5001#16, 0x9001#16, 0x8008#16, 0x800F#16, 0xE000#16, 0xF000#16, 0xF0FF#16].all
    (fun w => !wordWellFormed w && (decode w).isNone) = true := by decide
theorem test_wellformed_takes_words : [0x00E0#16, 0x1208#16, 0x5120#16, 0x84A6#16, 0x9120#16, 0xE5A1#16, 0xF065#16].all wordWellFormed = true := by decide
/-- The largest image has 3584 bytes (R288). -/
theorem test_wellformed_image : imageWellFormed (List.replicate 3584 0) = true ∧ imageWellFormed (List.replicate 3585 0) = false := by
  unfold imageWellFormed; rw [List.length_replicate, List.length_replicate]; decide

/-! ### Control flow (2.1) -/

/-- F1. -/
theorem test_jump : after (placed 0x1228) (fun t => (t.pc, t.result)) = some (0x0228, .continued) := by decide
/-- F4: the sum exceeds 0xFFF and is kept. -/
theorem test_jumpV0 : after (placed 0xBFFF (start.writeV 0 0xFF)) (·.pc) = some 0x10FE := by decide
/-- F6: the pushed address wraps. -/
theorem test_call : after (placed 0x2300 (start.setPc 0xFFFE)) (fun t => (t.readStack 0, t.sp, t.pc)) = some (0x0000, 1, 0x0300) := by decide
/-- F7. -/
theorem test_call_overflow : after (placed 0x2400 { start with pc := 0x0310, sp := 16 })
    (fun t => (t.result, t.faultCode, t.faultWord, t.faultPc, t.pc, t.sp)) = some (.faulted, 3, 0x2400, 0x0310, 0x0310, 16) := by decide
/-- F9: the popped slot keeps its value. -/
theorem test_ret : after (placed 0x00EE ((start.push 0x0204).push 0x0A08)) (fun t => (t.sp, t.pc, t.readStack 1)) = some (1, 0x0A08, 0x0A08) := by decide
/-- F8. -/
theorem test_ret_underflow : after (placed 0x00EE (start.setPc 0x0300)) (fun t => (t.result, t.faultCode, t.faultWord, t.faultPc, t.pc)) =
    some (.faulted, 2, 0x00EE, 0x0300, 0x0300) := by decide
/-- F10. -/
theorem test_skipEqual : after (placed 0x3105 (start.writeV 1 0x05)) (·.pc) = some 0x0204 := by decide
/-- F18: pc + 4 wraps. -/
theorem test_skipEqual_wraps : after (placed 0x3000 (start.setPc 0xFFFE)) (·.pc) = some 0x0002 := by decide
/-- F12, F13. -/
theorem test_skipNotEqual : after (placed 0x4105 (start.writeV 1 0x06)) (·.pc) = some 0x0204 ∧
    after (placed 0x4105 (start.writeV 1 0x05)) (·.pc) = some 0x0202 := by decide
/-- F14. -/
theorem test_skipEqualXY : after (placed 0x5110 (start.writeV 1 0x12)) (·.pc) = some 0x0204 := by decide
/-- F15, F16. -/
theorem test_skipNotEqualXY : after (placed 0x9110 (start.writeV 1 0x12)) (·.pc) = some 0x0202 ∧
    after (placed 0x9120 ((start.writeV 1 0x33).writeV 2 0x34)) (·.pc) = some 0x0204 := by decide

/-! ### ALU (2.2) -/

/-- A1. -/
theorem test_load : after (placed 0x632A) (fun t => (t.readV 3, t.pc)) = some (0x2A, 0x0202) := by decide
/-- A2: the wrap does not touch VF. -/
theorem test_add : after (placed 0x72FF ((start.writeV 2 0x02).writeV 0xF 0x07)) (fun t => (t.readV 2, t.readV 0xF)) = some (0x01, 0x07) := by decide
/-- A4. -/
theorem test_move : after (placed 0x8120 (start.writeV 2 0x5A)) (fun t => (t.readV 1, t.readV 2)) = some (0x5A, 0x5A) := by decide
/-- A5: VF is not reset. -/
theorem test_or : after (placed 0x8121 (((start.writeV 1 0xF0).writeV 2 0x0F).writeV 0xF 0x07)) (fun t => (t.readV 1, t.readV 0xF)) = some (0xFF, 0x07) := by decide
/-- A6. -/
theorem test_and : after (placed 0x8122 ((start.writeV 1 0xF0).writeV 2 0x3C)) (·.readV 1) = some 0x30 := by decide
/-- A7. -/
theorem test_xor : after (placed 0x8123 ((start.writeV 1 0xF0).writeV 2 0x3C)) (·.readV 1) = some 0xCC := by decide
/-- A11: with x = 0xF the carry is the final value of VF. -/
theorem test_addXY_vf : after (placed 0x8F14 ((start.writeV 0xF 0xFF).writeV 1 0x01)) (·.readV 0xF) = some 0x01 := by decide
/-- A12: the old VF is the operand. -/
theorem test_addXY : after (placed 0x81F4 ((start.writeV 1 0x80).writeV 0xF 0x80)) (fun t => (t.readV 1, t.readV 0xF)) = some (0x00, 1) := by decide
/-- S2: borrow clears VF. -/
theorem test_subXY : after (placed 0x8125 ((start.writeV 1 0x05).writeV 2 0x07)) (fun t => (t.readV 1, t.readV 0xF)) = some (0xFE, 0) := by decide
/-- A13: equality is no borrow. -/
theorem test_subXY_equal : after (placed 0x8125 ((start.writeV 1 0x42).writeV 2 0x42)) (fun t => (t.readV 1, t.readV 0xF)) = some (0x00, 1) := by decide
/-- A15. -/
theorem test_subYX : after (placed 0x8127 ((start.writeV 1 0x05).writeV 2 0x07)) (fun t => (t.readV 1, t.readV 0xF)) = some (0x02, 1) := by decide
/-- A17. -/
theorem test_subYX_vf : after (placed 0x8F17 ((start.writeV 0xF 0x03).writeV 1 0x01)) (·.readV 0xF) = some 0x00 := by decide
/-- A18: V[y] is neither read nor written. -/
theorem test_shiftRight : after (placed 0x84A6 ((start.writeV 4 0x80).writeV 0xA 0x55)) (fun t => (t.readV 4, t.readV 0xF, t.readV 0xA)) = some (0x40, 0, 0x55) := by decide
/-- S3: VF = 0x02, the result 0x01 is overwritten by the flag 0. -/
theorem test_shiftRight_vf : after (placed 0x8F06 (start.writeV 0xF 0x02)) (·.readV 0xF) = some 0x00 := by decide
/-- S3. -/
theorem test_shiftLeft : after (placed 0x840E (start.writeV 4 0x81)) (fun t => (t.readV 4, t.readV 0xF)) = some (0x02, 1) := by decide
/-- S3. -/
theorem test_shiftLeft_vf : after (placed 0x8F0E (start.writeV 0xF 0x40)) (·.readV 0xF) = some 0 := by decide
/-- A22. -/
theorem test_random : after (placed 0xC20F (start { rnd := 0xB7 })) (·.readV 2) = some 0x07 := by decide

/-! ### Index register and memory (2.3) -/

/-- M1: bits 15:12 of I become 0. -/
theorem test_loadI : after (placed 0xAFFF (start.setI 0x1234)) (·.I) = some 0x0FFF := by decide
/-- M2, M3. -/
theorem test_addI : after (placed 0xF31E ((start.setI 0x0FF8).writeV 3 0x10)) (fun t => (t.I, t.readV 0xF)) = some (0x1008, 0) ∧
    after (placed 0xF31E ((start.setI 0xFFFF).writeV 3 0x01)) (·.I) = some 0x0000 := by decide
/-- S11 and M6: no masking to the low nibble. -/
theorem test_loadFont : after (placed 0xF029 (start.writeV 0 0x0A)) (·.I) = some 0x0032 ∧
    after (placed 0xF029 (start.writeV 0 0xFF)) (·.I) = some 0x04FB := by decide
/-- M7. -/
theorem test_storeBCD : after (placed 0xF733 ((start.setI 0x0300).writeV 7 0x9C)) (fun t => (t.byteAt 0x300, t.byteAt 0x301, t.byteAt 0x302, t.I)) =
    some (1, 5, 6, 0x0300) := by decide
/-- M10: the address wraps into the font. -/
theorem test_storeBCD_wraps : after (placed 0xF333 ((start.setI 0x0FFE).writeV 3 0xFF)) (fun t => (t.byteAt 0xFFE, t.byteAt 0xFFF, t.byteAt 0x000)) =
    some (2, 5, 5) := by decide
/-- M11: MEM[0x403] and I are unchanged. -/
theorem test_storeRegisters : after (placed 0xF255 ((((start.setI 0x0400).writeV 0 0x11).writeV 1 0x22).writeV 2 0x33))
    (fun t => (t.byteAt 0x400, t.byteAt 0x401, t.byteAt 0x402, t.byteAt 0x403, t.I)) = some (0x11, 0x22, 0x33, 0, 0x0400) := by decide
/-- M12: sixteen bytes over the top of memory. -/
theorem test_storeRegisters_wraps : after (placed 0xFF55 (((start.setI 0x0FF8).writeV 0 0x01).writeV 0xF 0x0F))
    (fun t => (t.byteAt 0xFF8, t.byteAt 0xFFF, t.byteAt 0x000, t.byteAt 0x007, t.memWf)) = some (1, 0, 0, 0x0F, true) := by decide
/-- M14: the font, VF included. -/
theorem test_loadMemory : after (placed 0xFF65) (·.v.toList) =
    some [0xF0, 0x90, 0x90, 0x90, 0xF0, 0x20, 0x60, 0x20, 0x20, 0x70, 0xF0, 0x10, 0xF0, 0x80, 0xF0, 0xF0] := by decide
/-- M15: an I above 0xFFF wraps at the access. -/
theorem test_loadMemory_wraps : after (placed 0xF065 (poke 0xFFF 0xAB (start.setI 0x1FFF))) (fun t => (t.readV 0, t.readV 1)) = some (0xAB, 0) := by decide

/-! ### Display (2.4) -/

/-- D2: DIRTY is set even though nothing changed. -/
theorem test_clearDisplay : after (placed 0x00E0) (fun t => (t.fb.pixel 0 0, t.dirty)) = some (false, true) := by decide
/-- D5: glyph "0" split over the bottom and the top. -/
theorem test_draw_wraps : after (placed 0xD125 (start.writeV 2 30)) (fun t => ((t.fb.pixel 30 0, t.fb.pixel 31 1), (t.fb.pixel 0 3, t.fb.pixel 2 2), (t.fb.pixel 3 0, t.readV 0xF))) =
    some ((true, false), (true, true), (false, 0)) := by decide
/-- D8: a collision turns (0, 0) off, and VF = 1. -/
theorem test_draw_collides : after (placed 0xD001 (poke 0x301 0xC0 ((start.setI 0x0301).setFrame (Framebuffer.blank.toggle 0 0))))
    (fun t => (t.fb.pixel 0 0, t.fb.pixel 0 1, t.readV 0xF)) = some (false, true, 1) := by decide
/-- D7: no row, and VF = 0. -/
theorem test_draw_no_rows : after (placed 0xD010 (start.writeV 0xF 1)) (fun t => (t.fb.pixel 0 0, t.readV 0xF, t.dirty)) = some (false, 0, true) := by decide
/-- D10: the set wins over dirty_clr. -/
theorem test_dirty_set_wins : after (placed 0xD015 (start { dirtyClr := true })) (·.dirty) = some true := by decide

/-! ### Keys and timers (2.5) -/

/-- K1, K4. -/
theorem test_skipKeyPressed : after (placed 0xE59E ((start { keyValid := true, keyCode := 0xA }).writeV 5 0x0A)) (·.pc) = some 0x0204 ∧
    after (placed 0xE59E ((start { keyValid := true, keyCode := 0xA }).writeV 5 0x1A)) (·.pc) = some 0x0202 := by decide
/-- K5, K6. -/
theorem test_skipKeyNotPressed : after (placed 0xE5A1 (start.writeV 5 0x0A)) (·.pc) = some 0x0204 ∧
    after (placed 0xE5A1 ((start { keyValid := true, keyCode := 0xA }).writeV 5 0x0A)) (·.pc) = some 0x0202 := by decide
/-- K9: DT is read before the tick. -/
theorem test_loadDelay : after (placed 0xF307 ((start { tick := true }).setDt 0x3C)) (fun t => (t.readV 3, t.dt)) = some (0x3C, 0x3B) := by decide
/-- K10. -/
theorem test_waitKeyPress_waits : after (placed 0xF20A (start.setPc 0x0210)) (fun t => (t.result, t.pc, t.readV 2)) = some (.waiting, 0x0210, 0) := by decide
/-- K11. -/
theorem test_waitKeyPress : after (placed 0xF20A ((start { keyValid := true, keyCode := 0x7 }).setPc 0x0210)) (fun t => (t.readV 2, t.pc, t.result)) =
    some (0x07, 0x0212, .continued) := by decide
/-- K14: the tick follows the write. -/
theorem test_setDelay : after (placed 0xF115 ((start { tick := true }).writeV 1 0x05)) (·.dt) = some 4 := by decide
/-- K16: ST = 2 and sound_on. -/
theorem test_setSound : after (placed 0xF118 (start.writeV 1 0x02)) (fun t => (t.st, (t.outputs {}).soundOn)) = some (2, true) := by decide
/-- K18: floored at 0. -/
theorem test_tick_floor : after (start { step := false, tick := true }) (fun t => (t.dt, t.st)) = some (0, 0) := by decide

/-! ### Faults, fetch and the cycle (2.6–2.8) -/

/-- X4, S10. -/
theorem test_invalid : after (placed 0x5001) (fun t => (t.result, t.faultCode, t.faultWord, t.faultPc, t.pc)) = some (.faulted, 1, 0x5001, 0x0200, 0x0200) := by decide
/-- A faulted block executes nothing (after X2). -/
theorem test_faulted : after { start with faultCode := 1 } (fun t => (t.result, t.pc, t.faultCode)) = some (.idle, 0x0200, 1) := by decide
/-- P2: the low byte of a fetch at 0xFFF comes from 0x000. -/
theorem test_fetch_wraps : after (poke 0x000 0x55 (poke 0xFFF 0x61 (start.setPc 0x0FFF))) (fun t => (t.readV 1, t.pc)) = some (0x55, 0x1001) := by decide
/-- C1. -/
theorem test_rst : after { start { rst := true, tick := true, ldWe := true } with faultCode := 3, dt := 9, pc := 0x0300 } (fun t => (t.result, t.faultCode, t.dt, t.pc, t.byteAt 0x200)) =
    some (.idle, 0, 0, 0x0200, 0) := by decide
/-- R45, R67: with another FONT, LoadMemory at 0x000 loads that FONT's bytes, and 0 from 0x050 on. -/
theorem test_other_font : after (placed 0xF165 (startOther.setI 0x004F)) (fun t => (t.readV 0, t.readV 1)) = some (0x5A, 0) := by decide
/-- C3: clr_mem restores the FONT of the block, and so does rst. -/
theorem test_clears_restore_font : after (poke 0x000 1 (startOther { clrMem := true })) (fun t => (t.byteAt 0, t.memWf)) = some (0x5A, true) ∧
    after (poke 0x000 1 (startOther { rst := true })) (fun t => (t.byteAt 0, t.pc)) = some (0x5A, 0x0200) := by decide
/-- C2. -/
theorem test_clr_regs : after (((start { clrRegs := true, tick := true }).writeV 3 7).setDt 4) (fun t => (t.readV 3, t.dt, t.result)) = some (0, 4, .idle) := by decide
/-- C4: the step sees the loaded byte. -/
theorem test_load_then_step : after (poke 0x201 0x22 (start { ldWe := true, ldOff := 0, ldData := 0x61 })) (fun t => (t.readV 1, t.byteAt 0x200)) = some (0x22, 0x61) := by decide
/-- C5, C6. -/
theorem test_load_limit : after (start { step := false, ldWe := true, ldOff := 3583, ldData := 0xAB }) (·.byteAt 0xFFF) = some 0xAB ∧
    after (start { step := false, ldWe := true, ldOff := 3584, ldData := 0xAB }) (·.mem) = some [] := by decide
/-- C7: the fault does not cancel the tick. -/
theorem test_fault_and_tick : after (placed 0x0000 ((start { tick := true }).setDt 3)) (fun t => (t.result, t.dt)) = some (.faulted, 2) := by decide

/-! ### Witnesses: concrete states and operands that meet a statement's hypotheses together -/

theorem witness_OnlyTheShiftsIgnoreTheirYField :
    (decode 0x84A6 = some (.shiftRight 4) ∧ ∃ x, Instr.shiftRight 4 = .shiftRight x ∨ Instr.shiftRight 4 = .shiftLeft x) ∧
    (decode 0x84FE = some (.shiftLeft 4) ∧ ∃ x, Instr.shiftLeft 4 = .shiftRight x ∨ Instr.shiftLeft 4 = .shiftLeft x) ∧
    decode 0x1208 = some (.jump 0x208) ∧ ∀ x, Instr.jump 0x208 ≠ .shiftRight x ∧ Instr.jump 0x208 ≠ .shiftLeft x := by
  refine ⟨⟨by decide, 4, .inl rfl⟩, ⟨by decide, 4, .inr rfl⟩, by decide, fun x => ⟨?_, ?_⟩⟩ <;> exact fun h => nomatch h

theorem witness_RowsAreDisjointAndDecodeFollowsThem : ∃ (w : Word) (r₁ r₂ : OpcodeRow), r₁ ∈ opcodeRows ∧ r₂ ∈ opcodeRows ∧
    w &&& r₁.mask = r₁.code ∧ w &&& r₂.mask = r₂.code ∧ decode w = some (.jump 0x208) :=
  ⟨0x1208, ⟨0x1000, 0xF000⟩, ⟨0x1000, 0xF000⟩, by decide, by decide, by decide, by decide, by decide⟩

theorem witness_StepRunsTheDecodedInstruction : ∃ (s : State) (i : Instr) (t : State), s.ports.Steps ∧ s.faultCode = 0 ∧
    decode s.afterLoad.fetchWord = some i ∧ exec i s.afterLoad = .next t :=
  ⟨placed 0x632A, .load 3 0x2A, _, by decide, rfl, by decide, rfl⟩

theorem witness_APlacedWordIsRunNext : ∃ (s : State) (w : Word) (i : Instr) (t : State), s.memWf = true ∧ decode w = some i ∧
    exec i (s.withFetchWord 16 w.toNat) = .next t := ⟨start, 0x632A, .load 3 0x2A, _, rfl, by decide, rfl⟩

/-- A step that waits, and a step that does not. -/
theorem witness_AStepContinuesWaitsOrFaults : ∃ s s' : State, s.faultCode = 0 ∧ s'.faultCode = 0 ∧
    decode s.fetchWord = some (.waitKeyPress 2) ∧ s.ports.keyValid = false ∧ decode s'.fetchWord = none :=
  ⟨placed 0xF20A, placed 0x5001, rfl, rfl, by decide, rfl, by decide⟩

theorem witness_EveryCycleAnswersNext : State.reset.faultCode ≠ 4 := by decide

/-- One step that completes, one that faults. -/
theorem witness_NextPcFollowsTheTable : ∃ s t u : State, exec (.jump 0x228) s = .next t ∧ t.result ≠ .faulted ∧
    exec .ret s = .next u ∧ u.result = .faulted ∧ s.faultCode = 0 ∧ runStep s = .next u :=
  ⟨placed 0x00EE, _, _, rfl, by decide, rfl, rfl, rfl, rfl⟩

/-- Each clause of Call, at the depths where they meet. -/
theorem witness_CallPushesOrOverflows : ∃ s s' : State, s.sp.toNat < 16 ∧ s.sp = 15 ∧ s'.sp.toNat = 16 :=
  ⟨{ start with sp := 15 }, { start with sp := 16 }, by decide, rfl, rfl⟩

theorem witness_ReturnPopsOrUnderflows : ∃ s s' s'' : State, (0 < s.sp.toNat ∧ s.sp.toNat ≤ 16 ∧ s.sp = 1) ∧
    (0 < s'.sp.toNat ∧ s'.sp.toNat ≤ 16 ∧ s'.sp = 16) ∧ s''.sp.toNat = 0 :=
  ⟨{ start with sp := 1 }, { start with sp := 16 }, start, by decide, by decide, rfl⟩

theorem witness_CallsAndReturnsMatch : (Balanced [.call 0x300, .ret] ∧ start.sp.toNat ≤ 16 ∧
      ∃ t, execAll (.call 0x400 :: ([.call 0x300, .ret] ++ [.ret])) start = some t) ∧
    (start.sp = 0 ∧ (List.replicate 16 (0x400 : Addr12)).length = 16) :=
  ⟨⟨.wrap 0x300 [] .nil, by decide, Option.isSome_iff_exists.mp (by decide)⟩, rfl, rfl⟩

/-- An x that is not VF, for the clauses on the result, and x = 0xF, where VF ends as the flag. -/
theorem witness_AddXYGivesSumAndCarry : (0 : RegIdx) ≠ 0xF ∧ ¬ (0xF : RegIdx) ≠ 0xF := by decide
theorem witness_SubtractionsGiveDifferenceAndNotBorrow : (0xE : RegIdx) ≠ 0xF ∧ ¬ (0xF : RegIdx) ≠ 0xF := by decide
theorem witness_ShiftsGiveResultAndBitShiftedOut : (0xE : RegIdx) ≠ 0xF ∧ ¬ (0xF : RegIdx) ≠ 0xF := by decide

/-- Stores over the top of memory. -/
theorem witness_StoreBCDStoresThreeDigits : (start.setI 0xFFFF).memWf = true ∧ ∀ k, k < 3 → 0x300 ≠ a12 ((start.setI 0xFFFF).dataAddr k) := by
  refine ⟨rfl, ?_⟩; decide
theorem witness_StoreRegistersStoresABlock : (start.setI 0xFFFF).memWf = true ∧ (0xF : RegIdx).toNat ≤ (0xF : RegIdx).toNat ∧
    ∀ k, k < 16 → 0x300 ≠ a12 ((start.setI 0xFFFF).dataAddr k) := by
  refine ⟨rfl, by decide, ?_⟩; decide
theorem witness_LoadMemoryLoadsABlock : (3 : RegIdx).toNat ≤ (3 : RegIdx).toNat ∧ ¬ (4 : RegIdx).toNat ≤ (3 : RegIdx).toNat := by decide

theorem witness_AStoreIsSeenByTheNextFetch : ∃ s t : State, s.memWf = true ∧ exec (.storeRegisters 1) s = .next t ∧
    a12 (s.dataAddr (0 : RegIdx).toNat) = a12 (pcPlus s 2) ∧ a12 (s.dataAddr (1 : RegIdx).toNat) = a12 (pcPlus s 3) :=
  ⟨start.setI 0x0202, _, rfl, rfl, by decide, by decide⟩

/-- A covered pixel that is on, one that is off, and one that is not covered, of glyph "0" at the origin. -/
theorem witness_DrawInvertsCoveredPixelsAndReportsCollision : ∃ s : State, SpriteCovers s 0 1 5 0 0 ∧ s.fb.pixel 0 0 = true ∧
    SpriteCovers s 0 1 5 0 1 ∧ s.fb.pixel 0 1 = false ∧ ¬ SpriteCovers s 0 1 5 31 0 := by
  refine ⟨start.setFrame (Framebuffer.blank.toggle 0 0), ⟨0, 0, by decide⟩, by decide, ⟨0, 1, by decide⟩, by decide, ?_⟩
  rintro ⟨row, col, h1, _, _, h2, _⟩
  have h3 : row < 5 := h1
  have h4 : 31 = (0 + row) % 32 := h2
  omega

/-- No pixel is covered by a Draw of no rows, so none of the covered ones was on. -/
theorem witness_DrawInvertsCoveredPixels_noCollision : ∀ r c, SpriteCovers start 0 1 0 r c → start.fb.pixel r c = false :=
  fun _ _ ⟨_, _, h, _⟩ => absurd h (Nat.not_lt_zero _)

theorem witness_DrawingTwiceRestoresTheFrame : ∃ s t u : State, exec (.draw 0 1 5) s = .next t ∧ t.readV 0 = s.readV 0 ∧
    t.readV 1 = s.readV 1 ∧ exec (.draw 0 1 5) t = .next u := ⟨start, _, _, rfl, by decide, by decide, rfl⟩

theorem witness_OnlyClearDrawAndResetChangePixels : ∃ s t : State, step s = .next t ∧ t.fb.pixel 0 0 ≠ s.fb.pixel 0 0 :=
  ⟨placed 0xD015, _, rfl, by decide⟩

/-- A cycle that draws, one that only clears DIRTY, and one that does neither. -/
theorem witness_DirtyIsSetByDrawingBeforeItIsCleared : ∃ s s' s'' t t' t'' : State,
    (s.ports.NoReset ∧ step s = .next t ∧ s.ExecutesDisplay) ∧
    (s'.ports.NoReset ∧ step s' = .next t' ∧ ¬ s'.ExecutesDisplay ∧ s'.ports.dirtyClr = true) ∧
    (s''.ports.NoReset ∧ step s'' = .next t'' ∧ ¬ s''.ExecutesDisplay ∧ s''.ports.dirtyClr = false) := by
  refine ⟨placed 0x00E0, start { step := false, dirtyClr := true }, start { step := false }, _, _, _,
    ⟨by decide, rfl, .inl ⟨by decide, rfl, by decide⟩⟩, ⟨by decide, rfl, ?_, rfl⟩, by decide, rfl, ?_, rfl⟩
  · rintro (h | ⟨_, _, _, h⟩) <;> exact absurd h.1.2 (by decide)
  · rintro (h | ⟨_, _, _, h⟩) <;> exact absurd h.1.2 (by decide)

theorem witness_WaitKeyPressStoresTheKeyOrWaits : (start { keyValid := true, keyCode := 0xC }).ports.keyValid = true ∧
    start.ports.keyValid = false := by decide

theorem witness_AWaitingCycleIsRefetched : ∃ s : State, s.Executes (.waitKeyPress 2) ∧ s.ports.keyValid = false ∧
    s.ports.tick = false ∧ s.ports.dirtyClr = false ∧ s.ports.ldWe = false :=
  ⟨placed 0xF20A, ⟨by decide, rfl, by decide⟩, rfl, rfl, rfl, rfl⟩

theorem witness_OnlyTheTickDecrementsTheTimers : ∃ s t : State, s.ports.NoReset ∧ step s = .next t ∧
    (∀ x, ¬ s.Executes (.setDelay x)) ∧ ∀ x, ¬ s.Executes (.setSound x) :=
  ⟨start { step := false, tick := true }, _, by decide, rfl, fun _ h => absurd h.1.2 (by decide), fun _ h => absurd h.1.2 (by decide)⟩

theorem witness_TheTickFollowsTheStepOfItsCycle : ∃ s s' s'' t : State,
    (s.ports.tick = true ∧ s.Executes (.loadDelay 3) ∧ exec (.loadDelay 3) s.afterLoad = .next t) ∧
    (s'.ports.tick = true ∧ s'.Executes (.setDelay 1)) ∧ (s''.ports.tick = true ∧ s''.Executes (.setSound 1)) :=
  ⟨placed 0xF307 (start { tick := true }), placed 0xF115 (start { tick := true }), placed 0xF118 (start { tick := true }), _,
    ⟨rfl, ⟨by decide, rfl, by decide⟩, rfl⟩, ⟨rfl, by decide, rfl, by decide⟩, rfl, by decide, rfl, by decide⟩

theorem witness_TimersDecayToZeroAndStay : ∃ (p : Ports) (s : State), s.inputs = [p, p, p] ++ [] ∧ ∀ q ∈ [p, p, p], q.OnlyTicks :=
  ⟨{ step := false, tick := true }, { State.reset with inputs := List.replicate 3 { step := false, tick := true }, dt := 2 }, rfl, by decide⟩

theorem witness_OutputsShowTheState : ∃ p : Ports, p.fbRy.toNat = (31 : Fin 32).val ∧ p.fbRx.toNat = (63 : Fin 64).val :=
  ⟨{ fbRy := 31, fbRx := 63 }, by decide, by decide⟩

/-- A flag writer, and a register it does not write. -/
theorem witness_OnlyFlagWritersAndNamedRegistersWriteVF : ∃ s t : State, exec (.addXY 1 2) s = .next t ∧
    ¬ WritesReg 3 (.addXY 1 2) ∧ flagWriter (.addXY 1 2) = true :=
  ⟨start, _, rfl, fun h => h.elim (by decide) (by decide), rfl⟩

theorem witness_RegistersNotReadDoNotMatter : ∃ s t : State, ¬ ReadsReg 1 (.load 1 5) ∧ exec (.load 1 5) s = .next t ∧
    WritesReg 1 (.load 1 5) ∧ t.result = .continued := ⟨start, _, id, rfl, rfl, rfl⟩

theorem witness_InstructionsWriteOnlyTheirParts : ∃ s t : State, exec (.storeBCD 7) s = .next t := ⟨start, _, rfl⟩

theorem witness_PortsOfOtherCyclesDoNotMatter : ∃ (p : Ports) (s t : State), s.inputs = p :: [] ∧ step s = .next t :=
  ⟨{}, placed 0x632A, _, rfl, rfl⟩

/-- A key instruction with another random byte, and Random with another key. -/
theorem witness_OnlyKeyAndRandomInstructionsReadPorts : ∃ (p q q' : Ports) (s t t' : State), s.inputs = [p] ∧
    ((readsKey (.waitKeyPress 2) = true → q.keyValid = p.keyValid ∧ q.keyCode = p.keyCode) ∧
      ((∃ x nn, Instr.waitKeyPress 2 = .random x nn) → q.rnd = p.rnd) ∧ exec (.waitKeyPress 2) s = .next t ∧ q.rnd ≠ p.rnd) ∧
    ((readsKey (.random 2 0x0F) = true → q'.keyValid = p.keyValid ∧ q'.keyCode = p.keyCode) ∧
      ((∃ x nn, Instr.random 2 0x0F = .random x nn) → q'.rnd = p.rnd) ∧ exec (.random 2 0x0F) s = .next t' ∧
      q'.keyValid ≠ p.keyValid) :=
  ⟨{}, { rnd := 7 }, { keyValid := true }, start, _, _, rfl,
    ⟨fun _ => ⟨rfl, rfl⟩, (fun ⟨_, _, h⟩ => nomatch h), rfl, by decide⟩, ⟨(fun h => nomatch h), fun _ => rfl, rfl, by decide⟩⟩

theorem witness_EveryCycleKeepsTheInvariant : ∃ s t : State, s.Inv ∧ step s = .next t :=
  ⟨placed 0xF733, _, by decide, rfl⟩

theorem witness_AnUnmatchedWordRaisesInvalidInstruction : ∃ s : State, s.faultCode = 0 ∧ ∀ r ∈ opcodeRows, s.fetchWord &&& r.mask ≠ r.code :=
  ⟨placed 0x5001, rfl, by decide⟩

/-- Each of the three causes. -/
theorem witness_AStepFaultsForThreeCausesOnly : ∃ s s' s'' t t' t'' : State,
    (s.faultCode = 0 ∧ runStep s = .next t ∧ decode s.fetchWord = none ∧ t.result = .faulted) ∧
    (s'.faultCode = 0 ∧ runStep s' = .next t' ∧ (∃ a, decode s'.fetchWord = some (.call a)) ∧ s'.sp = 16 ∧ t'.faultCode ≠ 0) ∧
    (s''.faultCode = 0 ∧ runStep s'' = .next t'' ∧ decode s''.fetchWord = some .ret ∧ s''.sp = 0) :=
  ⟨placed 0x5001, placed 0x2400 { start with sp := 16 }, placed 0x00EE, _, _, _,
    ⟨rfl, rfl, by decide, rfl⟩, ⟨rfl, rfl, ⟨0x400, by decide⟩, rfl, by decide⟩, ⟨rfl, rfl, by decide, rfl⟩⟩

theorem witness_FaultsArePrecise : ∃ s t : State, s.faultCode = 0 ∧ runStep s = .next t ∧ t.result = .faulted :=
  ⟨placed 0x2400 { start with sp := 16 }, _, rfl, rfl, rfl⟩

theorem witness_AFaultedBlockExecutesNothing : ∃ s : State, s.faultCode ≠ 0 ∧ s.ports.NoReset :=
  ⟨{ start with faultCode := 2 }, by decide, by decide⟩

theorem witness_OnlyFullResetClearsTheLatch : ∃ s s' t t' : State, (s.faultCode ≠ 0 ∧ step s = .next t ∧ s.ports.rst = false) ∧
    (s'.faultCode ≠ 0 ∧ step s' = .next t' ∧ s'.ports.rst = true) :=
  ⟨{ start { clrMem := true, clrRegs := true } with faultCode := 1 }, { start { rst := true } with faultCode := 1 }, _, _,
    ⟨by decide, rfl, rfl⟩, ⟨by decide, rfl, rfl⟩⟩

/-- Addresses on both sides of the end of FONT, with a FONT that is not the default. -/
theorem witness_ResetValuesAreTheTables : 79 < 80 ∧ 80 ≤ 80 ∧ (State.resetWith otherFont).byteAt 79 = 0x5A := by decide

theorem witness_FullResetOverridesEverything : (start { rst := true, clrMem := true, ldWe := true }).ports.rst = true := rfl

theorem witness_PartialClearsClearTheirPartsOnly : ∃ s : State, s.ports.rst = false ∧ s.ports.anyClear = true :=
  ⟨start { clrStack := true, dirtyClr := true }, rfl, rfl⟩

/-- The last offset that is written, with step low, and with the block faulted. -/
theorem witness_TheLoadPortWritesTheProgramArea : ∃ s s' t t' : State,
    (s.memWf = true ∧ s.ports.NoReset ∧ s.ports.step = false ∧ step s = .next t ∧ s.ports.ldOff.toNat = 3583) ∧
    (s'.memWf = true ∧ s'.ports.NoReset ∧ s'.faultCode ≠ 0 ∧ step s' = .next t' ∧ s'.ports.ldOff.toNat = 3584) :=
  ⟨start { step := false, ldWe := true, ldOff := 3583 }, { start { ldWe := true, ldOff := 3584 } with faultCode := 1 }, _, _,
    ⟨rfl, by decide, rfl, rfl, rfl⟩, ⟨rfl, by decide, by decide, rfl, rfl⟩⟩

/-- The longest image that is loaded, and one byte more. -/
theorem witness_BootLoadsTheImageOrRefusesIt : (List.replicate 3584 (0x12 : Byte)).length ≤ 3584 ∧
    3584 < (List.replicate 3585 (0x12 : Byte)).length := by
  rw [List.length_replicate, List.length_replicate]; decide

/-- A block with another FONT, in a cycle that writes memory, one that clears it and one that resets the block. -/
theorem witness_EveryCycleKeepsFont : ∃ s s' s'' t t' t'' : State, step s = .next t ∧ step s' = .next t' ∧
    step s'' = .next t'' ∧ s.font = otherFont ∧ s'.font = otherFont ∧ s''.font = otherFont ∧ otherFont ≠ defaultFont :=
  ⟨placed 0xF733 startOther, startOther { clrMem := true }, startOther { rst := true }, _, _, _, rfl, rfl, rfl,
    rfl, rfl, rfl, by decide⟩

end Sys2Proof.Tests
end

section
/-! PROOFS. How a step ends (R14, R112, R116, R120): the four ways `exec` can answer, with the condition of each, and
from them the outcome of a step of a block without a fault. -/

namespace Sys2Proof.Machine

/-! ### How an instruction ends its step -/

/-- The ways `exec i s` can end, each with when it is taken: CONTINUE by every instruction but a WaitKeyPress without a
key, WAIT by that one (R120), and the two stack faults of Return and Call (R241, R242). -/
inductive ExecEnds (i : Instr) (s : State) : Prop where
  | continues (target : Word) (u : State) (hexec : exec i s = continueAt target u)
      (hkey : ∀ x, i = .waitKeyPress x → s.ports.keyValid = true)
  | waits (x : RegIdx) (hi : i = .waitKeyPress x) (hkey : s.ports.keyValid = false) (hexec : exec i s = waitHere s)
  | underflows (hi : i = .ret) (hsp : s.sp = 0) (hexec : exec i s = raise .stackUnderflow (encode i) s)
  | overflows (nnn : Addr12) (hi : i = .call nnn) (hsp : s.sp = 16)
      (hexec : exec i s = raise .stackOverflow (encode i) s)

theorem execEnds_ret (s : State) : ExecEnds .ret s := by
  by_cases hsp : s.sp = 0
  · exact .underflows rfl hsp (if_pos hsp)
  · exact .continues _ _ (if_neg hsp) nofun

theorem execEnds_call (nnn : Addr12) (s : State) : ExecEnds (.call nnn) s := by
  by_cases hsp : s.sp = 16
  · exact .overflows nnn rfl hsp (if_pos hsp)
  · exact .continues _ _ (if_neg hsp) nofun

theorem execWaitKeyPress_of_no_key {s : State} (x : RegIdx) (hkey : s.ports.keyValid = false) :
    execWaitKeyPress x s = waitHere s := by
  simp [execWaitKeyPress, Ports.key, hkey]

theorem execWaitKeyPress_of_key {s : State} (x : RegIdx) (hkey : s.ports.keyValid = true) :
    execWaitKeyPress x s = advance (s.writeV x (s.ports.keyCode.setWidth 8)) := by
  simp [execWaitKeyPress, Ports.key, hkey]

theorem execEnds_waitKeyPress (x : RegIdx) (s : State) : ExecEnds (.waitKeyPress x) s := by
  cases hkey : s.ports.keyValid with
  | false => exact .waits x rfl hkey (execWaitKeyPress_of_no_key x hkey)
  | true => exact .continues _ _ (execWaitKeyPress_of_key x hkey) fun _ _ => hkey

/-- Every instruction ends in one of the four ways: only Return, Call and WaitKeyPress can do anything but continue. -/
theorem execEnds (i : Instr) (s : State) : ExecEnds i s := by
  cases i
  case ret => exact execEnds_ret s
  case call nnn => exact execEnds_call nnn s
  case waitKeyPress x => exact execEnds_waitKeyPress x s
  all_goals exact .continues _ _ rfl nofun

/-! ### The outcome of a step -/

/-- The output `result` is none of the parts (R20, R29). -/
theorem sameBut_setResult (changed : List Part) (s : State) (r : StepResult) : SameBut changed s (s.setResult r) := by
  intro part _
  cases part <;> simp [Part.Same]

/-- Settles O8: a word that does not decode faults, and a decoded instruction ends in one of the four ways of
`ExecEnds`, of which only the waiting one has result WAIT. -/
theorem aStepContinuesWaitsOrFaults : Obligations.AStepContinuesWaitsOrFaults := by
  intro s hs
  cases hd : decode s.fetchWord with
  | none => exact ⟨_, runStep_of_none s hs hd, by simp⟩
  | some i =>
    rw [runStep_of_decode s hs hd]
    cases execEnds i s with
    | continues target u hexec hkey => exact ⟨_, hexec, by simpa using hkey⟩
    | waits x hi hkey hexec => exact ⟨_, hexec, by simp [hi, hkey, sameBut_setResult]⟩
    | underflows hi hsp hexec => exact ⟨_, hexec, by simp [hi]⟩
    | overflows nnn hi hsp hexec => exact ⟨_, hexec, by simp [hi]⟩

end Sys2Proof.Machine
end

section
/-! PROOFS. What an instruction may write (R23, R24, R27, R30–R32, R36, R61), said once: the updates by which `exec`
makes its next state. From it: only the listed registers and parts are written. -/

namespace Sys2Proof.Machine

/-! ### The updates of an instruction -/

/-- The updates an instruction makes beside `pc` and `result`, each with the instructions that may make it; a push and
a pop with the depth they need (R241, R242), and a fault with a code that a step writes (R35). -/
inductive Updates (i : Instr) (s : State) : State → Prop where
  | none : Updates i s s
  | regs (v : Vector Byte 16) (hpart : .regs ∈ mayWrite i) (hregs : SameRegsBut (WritesReg · i) s { s with v := v }) :
      Updates i s { s with v := v }
  | index (w : Word) (hpart : .index ∈ mayWrite i) : Updates i s (s.setI w)
  | mem (a : Nat) (bs : List Byte) (hpart : .mem ∈ mayWrite i) : Updates i s (s.memWriteBytes a bs)
  | delay (b : Byte) (hpart : .delay ∈ mayWrite i) : Updates i s (s.setDt b)
  | sound (b : Byte) (hpart : .sound ∈ mayWrite i) : Updates i s (s.setSt b)
  | frame (fb : Framebuffer) (hi : i = .clearDisplay) : Updates i s (s.setFrame fb)
  | drawn (x y : RegIdx) (n : Height) (fb : Framebuffer) (b : Byte) (hi : i = .draw x y n) :
      Updates i s ((s.setFrame fb).writeV vfIdx b)
  | push (w : Word) (hpart : .stack ∈ mayWrite i) (hsp : s.sp ≠ 16) : Updates i s (s.push w)
  | pop (hpart : .stack ∈ mayWrite i) (hsp : s.sp ≠ 0) : Updates i s s.pop
  | latch (f : FaultKind) (w : Word) (hpart : .latch ∈ mayWrite i) (hcode : f.code.toNat ≤ 3) :
      Updates i s (s.latchFault f w)

/-- `exec i s` answers next, with one of the instruction's updates and a new `pc` and `result`. -/
def ExecUpdates (i : Instr) (s : State) : Prop :=
  ∃ u w r, Updates i s u ∧ exec i s = .next ((u.setPc w).setResult r)

section
variable {i : Instr} {s : State}

theorem Updates.writeV {x : RegIdx} (b : Byte) (hpart : .regs ∈ mayWrite i) (hx : WritesReg x i) :
    Updates i s (s.writeV x b) :=
  .regs _ hpart fun _ hr => s.readV_writeV_ne b fun e => hr (e ▸ hx)

theorem Updates.writeFlagged {x : RegIdx} (b : Byte) (f : Bool) (hpart : .regs ∈ mayWrite i) (hx : WritesReg x i)
    (hvf : WritesReg vfIdx i) : Updates i s (s.writeFlagged x b f) := by
  refine .regs _ hpart fun r hr => ?_
  have hrx : r ≠ x := fun e => hr (e ▸ hx)
  have hrvf : r ≠ vfIdx := fun e => hr (e ▸ hvf)
  exact (s.readV_writeFlagged x r b f).trans (by rw [if_neg hrvf, if_neg hrx])

end

theorem execRet_of_empty {s : State} (hsp : s.sp = 0) : execRet s = raise .stackUnderflow (encode .ret) s := if_pos hsp

theorem execRet_of_nonempty {s : State} (hsp : s.sp ≠ 0) : execRet s = continueAt (s.readStack (s.sp - 1)) s.pop :=
  if_neg hsp

theorem execCall_of_full {s : State} (nnn : Addr12) (hsp : s.sp = 16) :
    execCall nnn s = raise .stackOverflow (encode (.call nnn)) s := if_pos hsp

theorem execCall_of_room {s : State} (nnn : Addr12) (hsp : s.sp ≠ 16) :
    execCall nnn s = continueAt (addrOperand nnn) (s.push (s.pc + 2)) := if_neg hsp

theorem execUpdates_ret (s : State) : ExecUpdates .ret s := by
  by_cases hsp : s.sp = 0
  · exact ⟨_, s.pc, _, .latch .stackUnderflow _ (by decide) (by decide), execRet_of_empty hsp⟩
  · exact ⟨_, _, _, .pop (by decide) hsp, execRet_of_nonempty hsp⟩

theorem execUpdates_call (nnn : Addr12) (s : State) : ExecUpdates (.call nnn) s := by
  by_cases hsp : s.sp = 16
  · exact ⟨_, s.pc, _, .latch .stackOverflow _ (.tail _ (.head _)) (by decide), execCall_of_full nnn hsp⟩
  · exact ⟨_, _, _, .push _ (.head _) hsp, execCall_of_room nnn hsp⟩

theorem execUpdates_waitKeyPress (x : RegIdx) (s : State) : ExecUpdates (.waitKeyPress x) s := by
  cases hkey : s.ports.keyValid with
  | false => exact ⟨_, s.pc, _, .none, execWaitKeyPress_of_no_key x hkey⟩
  | true => exact ⟨_, _, _, .writeV _ (.head _) rfl, execWaitKeyPress_of_key x hkey⟩

/-- LoadMemory writes V[0..x], and leaves `I` alone (R185). -/
theorem execUpdates_loadMemory (x : RegIdx) (s : State) : ExecUpdates (.loadMemory x) s := by
  obtain ⟨v, hv⟩ := s.loadRegs_eq (s.dataAddr 0) (regCount x)
  refine ⟨{ s with v := v }, s.pc + 2, .continued, .regs v (.head _) fun r hr => ?_, ?_⟩
  · have hr : ¬ r.toNat < regCount x := fun h => hr (Nat.le_of_lt_succ h)
    rw [← hv, s.readV_loadRegs _ (regCount x) x.isLt, if_neg hr]
  · simp only [exec, execLoadMemory, hv, advance_eq]
    rfl

/-- Every instruction answers next, and writes only by its own updates (R112, R116). -/
theorem execUpdates (i : Instr) (s : State) : ExecUpdates i s := by
  cases i
  case ret => exact execUpdates_ret s
  case call nnn => exact execUpdates_call nnn s
  case waitKeyPress x => exact execUpdates_waitKeyPress x s
  case loadMemory x => exact execUpdates_loadMemory x s
  case clearDisplay => exact ⟨_, _, _, .frame _ rfl, rfl⟩
  case draw x y n => exact ⟨_, _, _, .drawn x y n _ _ rfl, rfl⟩
  case loadI | addI | loadFont => exact ⟨_, _, _, .index _ (.head _), rfl⟩
  case storeBCD | storeRegisters => exact ⟨_, _, _, .mem _ _ (.head _), rfl⟩
  case setDelay => exact ⟨_, _, _, .delay _ (.head _), rfl⟩
  case setSound => exact ⟨_, _, _, .sound _ (.head _), rfl⟩
  case load | add | move | or | and | xor | random | loadDelay => exact ⟨_, _, _, .writeV _ (.head _) rfl, rfl⟩
  case addXY | subXY | subYX | shiftRight | shiftLeft =>
    exact ⟨_, _, _, .writeFlagged _ _ (.head _) (.inl rfl) (.inr rfl), rfl⟩
  case jump | jumpV0 | skipEqual | skipNotEqual | skipEqualXY | skipNotEqualXY | skipKeyPressed | skipKeyNotPressed =>
    exact ⟨_, _, _, .none, rfl⟩

/-- The next state of an instruction is one of its updates, with a new `pc` and `result`. -/
theorem updates_of_exec {i : Instr} {s t : State} (h : exec i s = .next t) :
    ∃ u w r, Updates i s u ∧ t = (u.setPc w).setResult r := by
  obtain ⟨u, w, r, hu, hexec⟩ := execUpdates i s
  exact ⟨u, w, r, hu, Host.Outcome.next.inj (h.symm.trans hexec)⟩

/-! ### The parts an instruction writes -/

section
variable (s : State)

theorem sameBut_regs (v : Vector Byte 16) : SameBut [.regs] s { s with v := v } := by
  intro part hpart
  cases part <;> simp_all [Part.Same, State.byteAt, State.readStack]

theorem sameBut_setI (w : Word) : SameBut [.index] s (s.setI w) := by
  intro part hpart
  cases part <;> simp_all [Part.Same]

theorem sameBut_memWriteBytes (a : Nat) (bs : List Byte) : SameBut [.mem] s (s.memWriteBytes a bs) := by
  intro part hpart
  cases part <;> simp_all [Part.Same]

theorem sameBut_setDt (b : Byte) : SameBut [.delay] s (s.setDt b) := by
  intro part hpart
  cases part <;> simp_all [Part.Same]

theorem sameBut_setSt (b : Byte) : SameBut [.sound] s (s.setSt b) := by
  intro part hpart
  cases part <;> simp_all [Part.Same]

theorem sameBut_setFrame (fb : Framebuffer) : SameBut [.pixels, .dirty] s (s.setFrame fb) := by
  intro part hpart
  cases part <;> simp_all [Part.Same]

theorem sameBut_push (w : Word) : SameBut [.stack] s (s.push w) := by
  intro part hpart
  cases part <;> simp_all [Part.Same]

theorem sameBut_pop : SameBut [.stack] s s.pop := by
  intro part hpart
  cases part <;> simp_all [Part.Same]

theorem sameBut_latchFault (f : FaultKind) (w : Word) : SameBut [.latch] s (s.latchFault f w) := by
  intro part hpart
  cases part <;> simp_all [Part.Same]

theorem sameBut_drawn (fb : Framebuffer) (x : RegIdx) (b : Byte) :
    SameBut [.pixels, .dirty, .regs] s ((s.setFrame fb).writeV x b) := by
  intro part hpart
  cases part <;> simp_all [Part.Same]

/-- `pc` and the output `result` are none of the parts. -/
theorem sameBut_setPc_setResult {changed : List Part} {s u : State} (h : SameBut changed s u) (w : Word)
    (r : StepResult) : SameBut changed s ((u.setPc w).setResult r) := by
  intro part hpart
  have := h part hpart
  cases part <;> simpa [Part.Same] using this

end

theorem SameBut.mono {c c' : List Part} {s t : State} (h : SameBut c s t) (hc : c ⊆ c') : SameBut c' s t :=
  fun part hpart => h part fun hmem => hpart (hc hmem)

/-- An update writes only parts of its instruction's list. -/
theorem Updates.sameBut {i : Instr} {s u : State} (h : Updates i s u) : SameBut (mayWrite i) s u := by
  cases h with
  | none => exact fun part _ => by cases part <;> simp [Part.Same]
  | regs v hpart => exact (sameBut_regs s v).mono (by simpa)
  | index w hpart => exact (sameBut_setI s w).mono (by simpa)
  | mem a bs hpart => exact (sameBut_memWriteBytes s a bs).mono (by simpa)
  | delay b hpart => exact (sameBut_setDt s b).mono (by simpa)
  | sound b hpart => exact (sameBut_setSt s b).mono (by simpa)
  | frame fb hi => exact hi ▸ sameBut_setFrame s fb
  | drawn x y n fb b hi => exact hi ▸ sameBut_drawn s fb vfIdx b
  | push w hpart => exact (sameBut_push s w).mono (by simpa)
  | pop hpart => exact (sameBut_pop s).mono (by simpa)
  | latch f w hpart => exact (sameBut_latchFault s f w).mono (by simpa)

/-- Settles O42: each update is of a part in its instruction's list, and `pc` and `result` are no parts. -/
theorem instructionsWriteOnlyTheirParts : Obligations.InstructionsWriteOnlyTheirParts := by
  intro i s t h
  obtain ⟨u, w, r, hu, rfl⟩ := updates_of_exec h
  exact sameBut_setPc_setResult hu.sameBut w r

/-! ### The registers an instruction writes -/

/-- An update writes only registers of its instruction's list. -/
theorem Updates.sameRegsBut {i : Instr} {s u : State} (h : Updates i s u) : SameRegsBut (WritesReg · i) s u := by
  intro q hq
  cases h with
  | regs v hpart hregs => exact hregs q hq
  | drawn x y n fb b hi =>
    subst hi
    exact State.readV_writeV_ne _ b hq
  | _ => rfl

/-- The six flag writers write VF last, as a flag (R23, R118). -/
theorem exec_of_flagWriter {i : Instr} (s : State) (h : flagWriter i = true) :
    ∃ (u : State) (f : Bool), exec i s = advance (u.writeV vfIdx (flagByte f)) := by
  cases i
  case addXY | subXY | subYX | shiftRight | shiftLeft | draw => exact ⟨_, _, rfl⟩
  all_goals exact absurd h Bool.false_ne_true

theorem flagByte_toNat_le_one (f : Bool) : (flagByte f).toNat ≤ 1 := by cases f <;> decide

/-- Settles O40: the registers outside the list are kept by every update, and a flag writer's last write is the flag. -/
theorem onlyFlagWritersAndNamedRegistersWriteVF : Obligations.OnlyFlagWritersAndNamedRegistersWriteVF := by
  intro i s t h
  constructor
  · obtain ⟨u, w, r, hu, rfl⟩ := updates_of_exec h
    simpa [SameRegsBut] using hu.sameRegsBut
  · intro hflag
    obtain ⟨u, f, hexec⟩ := exec_of_flagWriter s hflag
    obtain rfl := Host.Outcome.next.inj (h.symm.trans hexec)
    simpa using flagByte_toNat_le_one f

end Sys2Proof.Machine
end

section
/-! PROOFS. What one clock cycle keeps (R290): the ways a cycle can go, said once, and from them the invariant of the
reachable states (R36, R37, R121) and the parameter FONT (R45). -/

namespace Sys2Proof.Machine
variable {s t : State}

/-! ### The ways a cycle can go -/

/-- What the step of a cycle does (R113), each with when it does it. -/
inductive StepPhase (p : Ports) (s t : State) : Prop where
  | idle (hidle : p.step = false ∨ s.faultCode ≠ 0) (ht : t = s.setResult .idle)
  | unmatched (hstep : p.step = true) (hrun : s.faultCode = 0) (hd : decode s.fetchWord = none)
      (ht : t = (s.latchFault .invalidInstruction s.fetchWord).setResult .faulted)
  | executes (i : Instr) (hi : s.executes p = some i) (hexec : exec i s = .next t)

theorem stepPhase_cases {p : Ports} (h : stepPhase p s = .next t) : StepPhase p s t := by
  cases hstep : p.step with
  | false =>
    simp only [stepPhase, hstep, Bool.false_eq_true, if_false, Host.Outcome.next.injEq] at h
    exact .idle (.inl hstep) h.symm
  | true =>
    simp only [stepPhase, hstep, if_true] at h
    by_cases hrun : s.faultCode = 0
    · cases hd : decode s.fetchWord with
      | none =>
        rw [runStep_of_none s hrun hd] at h
        exact .unmatched hstep hrun hd (Host.Outcome.next.inj h).symm
      | some i =>
        rw [runStep_of_decode s hrun hd] at h
        exact .executes i ((s.executes_eq_some p).2 ⟨hstep, hrun, hd⟩) h
    · rw [runStep_of_faulted s hrun] at h
      exact .idle (.inr hrun) (Host.Outcome.next.inj h).symm

/-- The three branches of a cycle (R290): full reset, partial clears, and load, step, tick and DIRTY. -/
inductive CycleBranch (s t : State) : Prop where
  | reset (hrst : s.ports.rst = true) (ht : t = s.fullReset.endCycle)
  | clears (hrst : s.ports.rst = false) (hclr : s.ports.anyClear = true)
      (ht : t = (((s.applyClears s.ports).clearDirty s.ports).setResult .idle).endCycle)
  | runs (hnone : s.ports.NoReset) (u : State) (hphase : StepPhase s.ports s.afterLoad u)
      (ht : t = u.afterStep s.ports ((s.afterLoad.executes s.ports).any marksFrame))

theorem step_cases (h : step s = .next t) : CycleBranch s t := by
  unfold step at h
  cases hrst : s.ports.rst with
  | true =>
    rw [clockCycle_of_rst _ _ hrst] at h
    exact .reset hrst (Host.Outcome.next.inj h).symm
  | false =>
    cases hclr : s.ports.anyClear with
    | true =>
      rw [clockCycle_of_clear _ _ hrst hclr] at h
      exact .clears hrst hclr (Host.Outcome.next.inj h).symm
    | false =>
      rw [clockCycle_of_run _ _ hrst hclr] at h
      obtain ⟨u, hu, rfl⟩ := mapNext_eq_next.1 h
      exact .runs ⟨hrst, hclr⟩ u (stepPhase_cases hu) rfl

/-! ### The invariant -/

/-- Every update keeps the invariant: bytes are written in canonical form, a push is never onto 16 entries, and a pop
never from none. -/
theorem Updates.inv {i : Instr} {u : State} (h : Updates i s u) (hs : s.Inv) : u.Inv := by
  obtain ⟨hmem, hsp, hcode⟩ := hs
  cases h with
  | mem a bs => exact ⟨s.memWf_memWriteBytes hmem, hsp, hcode⟩
  | push w hpart hfull => refine ⟨hmem, ?_, hcode⟩; rw [State.sp_push]; bv_omega
  | pop hpart hempty => refine ⟨hmem, ?_, hcode⟩; rw [State.sp_pop]; bv_omega
  | latch f w hpart hf => exact ⟨hmem, hsp, hf⟩
  | _ => exact ⟨hmem, hsp, hcode⟩

theorem exec_inv {i : Instr} (h : exec i s = .next t) (hs : s.Inv) : t.Inv := by
  obtain ⟨u, w, r, hu, rfl⟩ := updates_of_exec h
  simpa [State.Inv] using hu.inv hs

theorem StepPhase.inv {p : Ports} (h : StepPhase p s t) (hs : s.Inv) : t.Inv := by
  obtain ⟨hmem, hsp, hcode⟩ := hs
  cases h with
  | idle _ ht => subst ht; exact ⟨hmem, hsp, hcode⟩
  | unmatched _ _ _ ht => subst ht; exact ⟨hmem, hsp, by simp [FaultKind.code]⟩
  | executes i _ hexec => exact exec_inv hexec ⟨hmem, hsp, hcode⟩

theorem State.resetWith_inv (F : Font) : (State.resetWith F).Inv :=
  ⟨State.resetWith_memWf, Nat.zero_le _, Nat.zero_le _⟩

/-- Settles O46: reset memory lists nothing, and SP and FAULT_CODE are 0. -/
theorem resetHasTheInvariant : Obligations.ResetHasTheInvariant := State.resetWith_inv defaultFont

theorem State.afterLoad_inv (hs : s.Inv) : s.afterLoad.Inv := by
  obtain ⟨hmem, hsp, hcode⟩ := hs
  exact ⟨s.loadPort_wf s.ports hmem, by simpa, by simpa⟩

theorem State.applyClears_inv (p : Ports) (hs : s.Inv) : (s.applyClears p).Inv := by
  obtain ⟨hmem, hsp, hcode⟩ := hs
  refine ⟨s.applyClears_wf p hmem, ?_, by simpa⟩
  rw [State.sp_applyClears]
  split
  · decide
  · exact hsp

/-- Settles O45: each branch of a cycle keeps the invariant, the running one by its load and by its step. -/
theorem everyCycleKeepsTheInvariant : Obligations.EveryCycleKeepsTheInvariant := by
  intro s t hs h
  cases step_cases h with
  | reset _ ht =>
    subst ht
    exact State.resetWith_inv s.font
  | clears _ _ ht =>
    subst ht
    simpa [State.Inv] using State.applyClears_inv s.ports hs
  | runs _ u hphase ht =>
    subst ht
    simpa [State.Inv] using hphase.inv (State.afterLoad_inv hs)

/-! ### The parameter FONT -/

theorem font_not_mem_mayWrite (i : Instr) : Part.font ∉ mayWrite i := by cases i <;> simp [mayWrite]

/-- FONT is in no instruction's list of written parts. -/
theorem exec_font {i : Instr} (h : exec i s = .next t) : t.font = s.font :=
  instructionsWriteOnlyTheirParts i s t h .font (font_not_mem_mayWrite i)

theorem StepPhase.font {p : Ports} (h : StepPhase p s t) : t.font = s.font := by
  cases h with
  | idle _ ht => rw [ht, State.font_setResult]
  | unmatched _ _ _ ht => rw [ht, State.font_setResult, State.font_latchFault]
  | executes i _ hexec => exact exec_font hexec

/-- Settles O57: no branch of a cycle and no instruction writes FONT. -/
theorem everyCycleKeepsFont : Obligations.EveryCycleKeepsFont := by
  intro s t h
  cases step_cases h with
  | reset _ ht => simp [ht]
  | clears _ _ ht => simp [ht]
  | runs _ u hphase ht => simp [ht, hphase.font]

/-! ### Reset -/

/-- Reset memory in the first 80 bytes is FONT, whatever FONT is (R43, R45). -/
theorem State.byteAt_resetWith_font (F : Font) (a : Nat) (h : a < 80) : (State.resetWith F).byteAt a = F[a] := dif_pos h

/-- Reset memory above FONT is zero (R43). -/
theorem State.byteAt_resetWith_zero (F : Font) (a : Nat) (h : 80 ≤ a) : (State.resetWith F).byteAt a = 0 :=
  dif_neg (Nat.not_lt.2 h)

theorem State.readV_resetWith (F : Font) (r : RegIdx) : (State.resetWith F).readV r = 0 := Vector.getElem_replicate _

theorem State.readStack_resetWith (F : Font) (k : BitVec 5) : (State.resetWith F).readStack k = 0 :=
  Vector.getElem_replicate _

/-- Settles O52: registers, stack and framebuffer are replicated zeros, and memory lists nothing. -/
theorem resetValuesAreTheTables : Obligations.ResetValuesAreTheTables := by
  intro F s
  exact ⟨State.readV_resetWith F, rfl, rfl, rfl, State.readStack_resetWith F, rfl, rfl, Framebuffer.pixel_blank, rfl, rfl,
    rfl, rfl, State.byteAt_resetWith_font F, State.byteAt_resetWith_zero F⟩

/-- The first 80 bytes of reset memory, as a list, are FONT. -/
theorem State.map_byteAt_resetWith (F : Font) : (List.range 80).map (State.resetWith F).byteAt = F.toList := by
  apply List.ext_getElem
  · simp
  · intro a ha _
    simpa using State.byteAt_resetWith_font F a (by simpa using ha)

/-- Settles O58: reset memory is FONT, and the default FONT lists the table. -/
theorem theDefaultFontIsTheTable : Obligations.TheDefaultFontIsTheTable :=
  have hmem := State.map_byteAt_resetWith defaultFont
  ⟨rfl, hmem.symm, hmem.trans rfl⟩

end Sys2Proof.Machine
end

section
/-! PROOFS. A register that an instruction does not read (R24) has no effect on what it does: every instruction takes
two states that differ in that register alone to two such states. -/

namespace Sys2Proof.Machine

/-! ### States that differ in one register -/

/-- `t` is `s` with some byte in the register `r`, and `s` itself when `written` holds. -/
def DiffersAt (r : RegIdx) (written : Prop) (s t : State) : Prop :=
  ∃ c, t = s.writeV r c ∧ (written → c = s.readV r)

/-- Both answers are next states, which differ at `r` alone: not even there when the first continues and `written`
holds. -/
def AnswersDifferAt (r : RegIdx) (written : Prop) (o o' : Result) : Prop :=
  ∃ t t', o = .next t ∧ o' = .next t' ∧ DiffersAt r (written ∧ t.result = .continued) t t'

section
variable {r : RegIdx} {written : Prop} {s t : State}

theorem differsAt_writeV (r : RegIdx) (b : Byte) (s : State) : DiffersAt r False s (s.writeV r b) := ⟨b, rfl, False.elim⟩

theorem State.writeV_self (s : State) (x : RegIdx) (b c : Byte) : (s.writeV x b).writeV x c = s.writeV x c := by
  simp [State.writeV]

theorem State.writeV_comm (s : State) {x y : RegIdx} (h : x ≠ y) (b c : Byte) :
    (s.writeV x b).writeV y c = (s.writeV y c).writeV x b := by
  have hv : x.toNat ≠ y.toNat := fun e => h (BitVec.eq_of_toNat_eq e)
  simp only [State.writeV, Vector.set_comm _ _ hv]

/-- The same byte written into the same register of both: afterwards they agree there too. -/
theorem DiffersAt.writeV (h : DiffersAt r written s t) (x : RegIdx) (b : Byte) :
    DiffersAt r (written ∨ r = x) (s.writeV x b) (t.writeV x b) := by
  obtain ⟨c, rfl, hc⟩ := h
  by_cases hrx : r = x
  · subst hrx
    exact ⟨b, by rw [State.writeV_self, State.writeV_self], fun _ => by simp⟩
  · exact ⟨c, s.writeV_comm hrx c b, fun hw => by simpa [hrx] using hc (hw.resolve_right hrx)⟩

theorem DiffersAt.writeFlagged (h : DiffersAt r written s t) (x : RegIdx) (b : Byte) (f : Bool) :
    DiffersAt r ((written ∨ r = x) ∨ r = vfIdx) (s.writeFlagged x b f) (t.writeFlagged x b f) :=
  (h.writeV x b).writeV vfIdx (flagByte f)

theorem DiffersAt.mono {written' : Prop} (h : DiffersAt r written s t) (hw : written' → written) :
    DiffersAt r written' s t := by
  obtain ⟨c, ht, hc⟩ := h
  exact ⟨c, ht, hc ∘ hw⟩

theorem DiffersAt.pc_eq (h : DiffersAt r written s t) : t.pc = s.pc := by
  obtain ⟨c, rfl, -⟩ := h
  rfl

theorem DiffersAt.memRead_eq (h : DiffersAt r written s t) (a : Nat) : t.memRead a = s.memRead a := by
  obtain ⟨c, rfl, -⟩ := h
  rfl

/-- LoadMemory's loop gives both the same byte in every register it loads. -/
theorem DiffersAt.loadRegs (h : DiffersAt r written s t) (addr n : Nat) (hn : n ≤ 16) :
    DiffersAt r (r.toNat < n) (s.loadRegs addr n) (t.loadRegs addr n) := by
  induction n with
  | zero => exact h.mono fun hlt => absurd hlt (Nat.not_lt_zero _)
  | succ n ih =>
    have hstep := (ih (by omega)).writeV (BitVec.ofNat 4 n) (s.memRead (addr + n))
    simp only [State.loadRegs, h.memRead_eq]
    refine hstep.mono fun hlt => ?_
    by_cases hr : r.toNat < n
    · exact .inl hr
    · exact .inr (by bv_omega)

theorem DiffersAt.continueAt (h : DiffersAt r written s t) (w : Word) :
    AnswersDifferAt r written (continueAt w s) (continueAt w t) := by
  obtain ⟨c, rfl, hc⟩ := h
  exact ⟨_, _, rfl, rfl, c, rfl, fun hw => hc hw.1⟩

theorem DiffersAt.advance (h : DiffersAt r written s t) : AnswersDifferAt r written (advance s) (advance t) := by
  simpa only [Machine.advance, h.pc_eq] using h.continueAt (s.pc + 2)

theorem DiffersAt.skipIf (h : DiffersAt r written s t) (c : Bool) :
    AnswersDifferAt r written (skipIf c s) (skipIf c t) := by
  simpa only [Machine.skipIf, h.pc_eq] using h.continueAt (if c then s.pc + 4 else s.pc + 2)

/-- Neither a fault nor a wait reads or writes a register, and neither is CONTINUE. -/
theorem DiffersAt.raise (h : DiffersAt r False s t) (f : FaultKind) (w : Word) :
    AnswersDifferAt r written (raise f w s) (raise f w t) := by
  obtain ⟨c, rfl, -⟩ := h
  exact ⟨_, _, rfl, rfl, c, rfl, fun hw => nomatch hw.2⟩

theorem DiffersAt.waitHere (h : DiffersAt r False s t) : AnswersDifferAt r written (waitHere s) (waitHere t) := by
  obtain ⟨c, rfl, -⟩ := h
  exact ⟨_, _, rfl, rfl, c, rfl, fun hw => nomatch hw.2⟩

end

/-! ### Every instruction -/

section
variable {r : RegIdx} (b : Byte) (s : State)

/-- An operand reads the same whatever stands in a register that is not read. -/
theorem readV_writeV_of_not_reads {i : Instr} (hr : ¬ ReadsReg r i) {q : RegIdx} (hq : ReadsReg q i) :
    (s.writeV r b).readV q = s.readV q :=
  s.readV_writeV_ne b fun e => hr (e ▸ hq)

theorem regBytes_writeV {x : RegIdx} (hr : ¬ r.toNat ≤ x.toNat) : (s.writeV r b).regBytes x = s.regBytes x := by
  apply List.ext_getElem
  · simp only [State.regBytes_length]
  · intro k hk _
    rw [State.regBytes_length] at hk
    rw [State.regBytes_getElem, State.regBytes_getElem]
    exact s.readV_writeV_ne b (by bv_omega)

theorem drawn_writeV {x y : RegIdx} (n : Height) (hr : ¬ (r = x ∨ r = y)) :
    (s.writeV r b).drawn x y n = s.drawn x y n := by
  have hx : (s.writeV r b).readV x = s.readV x := s.readV_writeV_ne b fun e => hr (.inl e.symm)
  have hy : (s.writeV r b).readV y = s.readV y := s.readV_writeV_ne b fun e => hr (.inr e.symm)
  rw [State.drawn, hx, hy]
  rfl

theorem execRet_differsAt : AnswersDifferAt r False (execRet s) (execRet (s.writeV r b)) := by
  by_cases hsp : s.sp = 0
  · rw [execRet_of_empty hsp, execRet_of_empty (s := s.writeV r b) hsp]
    exact (differsAt_writeV r b s).raise _ _
  · rw [execRet_of_nonempty hsp, execRet_of_nonempty (s := s.writeV r b) hsp]
    exact (differsAt_writeV r b s.pop).continueAt _

theorem execCall_differsAt (nnn : Addr12) : AnswersDifferAt r False (execCall nnn s) (execCall nnn (s.writeV r b)) := by
  by_cases hsp : s.sp = 16
  · rw [execCall_of_full nnn hsp, execCall_of_full nnn (s := s.writeV r b) hsp]
    exact (differsAt_writeV r b s).raise _ _
  · rw [execCall_of_room nnn hsp, execCall_of_room nnn (s := s.writeV r b) hsp]
    exact (differsAt_writeV r b (s.push (s.pc + 2))).continueAt _

theorem execWaitKeyPress_differsAt (x : RegIdx) :
    AnswersDifferAt r (r = x) (execWaitKeyPress x s) (execWaitKeyPress x (s.writeV r b)) := by
  have hd := differsAt_writeV r b s
  cases hkey : s.ports.keyValid with
  | false =>
    rw [execWaitKeyPress_of_no_key x hkey, execWaitKeyPress_of_no_key x (s := s.writeV r b) hkey]
    exact hd.waitHere
  | true =>
    rw [execWaitKeyPress_of_key x hkey, execWaitKeyPress_of_key x (s := s.writeV r b) hkey]
    exact ((hd.writeV x _).mono .inr).advance

theorem execDraw_differsAt {x y : RegIdx} (n : Height) (hr : ¬ (r = x ∨ r = y)) :
    AnswersDifferAt r (r = vfIdx) (execDraw x y n s) (execDraw x y n (s.writeV r b)) := by
  simp only [execDraw, drawn_writeV b s n hr]
  exact (((differsAt_writeV r b (s.setFrame (s.drawn x y n).1)).writeV vfIdx _).mono .inr).advance

theorem execLoadMemory_differsAt (x : RegIdx) :
    AnswersDifferAt r (r.toNat ≤ x.toNat) (execLoadMemory x s) (execLoadMemory x (s.writeV r b)) := by
  obtain ⟨c, hload, hc⟩ := (differsAt_writeV r b s).loadRegs (s.dataAddr 0) (regCount x) x.isLt
  have hd : DiffersAt r (r.toNat < regCount x) ((s.loadRegs (s.dataAddr 0) (regCount x)).setI s.I)
      (((s.writeV r b).loadRegs (s.dataAddr 0) (regCount x)).setI s.I) := ⟨c, by rw [hload]; rfl, hc⟩
  exact (hd.mono Nat.lt_succ_of_le).advance

end

/-- Another byte in a register that the instruction does not read: the answers differ in that register alone, and not
even there when the instruction writes it and completes. -/
theorem exec_differsAt {i : Instr} {r : RegIdx} (b : Byte) (s : State) (hr : ¬ ReadsReg r i) :
    AnswersDifferAt r (WritesReg r i) (exec i s) (exec i (s.writeV r b)) := by
  have hd := differsAt_writeV r b
  have hop : ∀ {q}, ReadsReg q i → (s.writeV r b).readV q = s.readV q := readV_writeV_of_not_reads b s hr
  cases i
  case ret => exact execRet_differsAt b s
  case call nnn => exact execCall_differsAt b s nnn
  case waitKeyPress x => exact execWaitKeyPress_differsAt b s x
  case draw x y n => exact execDraw_differsAt b s n hr
  case loadMemory x => exact execLoadMemory_differsAt b s x
  case clearDisplay => exact (hd (s.setFrame _)).advance
  case jump nnn => exact (hd s).continueAt _
  case jumpV0 nnn =>
    simp only [exec, execJumpV0, hop rfl]
    exact (hd s).continueAt _
  case skipEqual | skipNotEqual | skipKeyPressed | skipKeyNotPressed =>
    simp only [exec, execSkipEqual, execSkipNotEqual, execSkipKeyPressed, execSkipKeyNotPressed, hop rfl]
    exact (hd s).skipIf _
  case skipEqualXY | skipNotEqualXY =>
    simp only [exec, execSkipEqualXY, execSkipNotEqualXY, hop (Or.inl rfl), hop (Or.inr rfl)]
    exact (hd s).skipIf _
  case loadI nnn => exact (hd (s.setI _)).advance
  case addI | loadFont =>
    simp only [exec, execAddI, execLoadFont, hop rfl]
    exact (hd (s.setI _)).advance
  case setDelay =>
    simp only [exec, execSetDelay, hop rfl]
    exact (hd (s.setDt _)).advance
  case setSound =>
    simp only [exec, execSetSound, hop rfl]
    exact (hd (s.setSt _)).advance
  case storeBCD =>
    simp only [exec, execStoreBCD, hop rfl]
    exact (hd (s.memWriteBytes _ _)).advance
  case storeRegisters x =>
    simp only [exec, execStoreRegisters, regBytes_writeV b s hr]
    exact (hd ((s.memWriteBytes _ _).setI _)).advance
  case load | random | loadDelay => exact (((hd s).writeV _ _).mono .inr).advance
  case add | move =>
    simp only [exec, execAdd, execMove, hop rfl]
    exact (((hd s).writeV _ _).mono .inr).advance
  case or | and | xor =>
    simp only [exec, execOr, execAnd, execXor, hop (Or.inl rfl), hop (Or.inr rfl)]
    exact (((hd s).writeV _ _).mono .inr).advance
  case shiftRight | shiftLeft =>
    simp only [exec, execShiftRight, execShiftLeft, hop rfl]
    exact (((hd s).writeFlagged _ _ _).mono (Or.imp_left .inr)).advance
  case addXY | subXY | subYX =>
    simp only [exec, execAddXY, execSubXY, execSubYX, hop (Or.inl rfl), hop (Or.inr rfl)]
    exact (((hd s).writeFlagged _ _ _).mono (Or.imp_left .inr)).advance

/-- Settles O41: the two answers differ in the register alone, so every part but the registers, and every other
register, is the same. -/
theorem registersNotReadDoNotMatter : Obligations.RegistersNotReadDoNotMatter := by
  intro i r b s t hr h
  obtain ⟨_, t', ht, ht', c, rfl, hc⟩ := exec_differsAt b s hr
  obtain rfl := Host.Outcome.next.inj (h.symm.trans ht)
  exact ⟨_, ht', fun q hq => t.readV_writeV_ne c hq, fun hw hres => (t.readV_writeV_self r c).trans (hc ⟨hw, hres⟩), rfl, rfl,
    sameBut_regs t _⟩

end Sys2Proof.Machine
end

section
/-! PROOFS. The encoding (R63, R81, R92, R98): the decoder gives back every instruction from its word and from its two
bytes as memory holds them. -/

namespace Sys2Proof

/-- Decoding an instruction's word gives the instruction: by the word's shape (R101), the field accessors read the
operands back, and the dispatch nibble with the secondary field selects the instruction's own arm (R85–R91). -/
@[simp] theorem decode_encode (i : Instr) : decode (encode i) = some i := by
  cases i
  case clearDisplay | ret => decide
  case jump | call | loadI | jumpV0 => simp only [encode, decode, fieldOp_address, fieldNNN_address]
  case skipEqual | skipNotEqual | load | add | random =>
    simp only [encode, decode, fieldOp_byte, fieldX_byte, fieldNN_byte]
  case skipEqualXY | skipNotEqualXY =>
    simp only [encode, decode, fieldOp_nibbles, fieldX_nibbles, fieldY_nibbles, fieldN_nibbles,
      BitVec.ofNat_eq_ofNat, ↓reduceIte]
  case draw => simp only [encode, decode, fieldOp_nibbles, fieldX_nibbles, fieldY_nibbles, fieldN_nibbles]
  case move | or | and | xor | addXY | subXY | subYX =>
    simp only [encode, decode, decodeFamily8, fieldOp_nibbles, fieldX_nibbles, fieldY_nibbles, fieldN_nibbles]
  case shiftRight | shiftLeft =>
    simp only [encode, decode, decodeFamily8, fieldOp_byte, fieldX_byte, fieldN_byte]
    rfl
  case skipKeyPressed | skipKeyNotPressed =>
    simp only [encode, decode, decodeFamilyE, fieldOp_byte, fieldX_byte, fieldNN_byte]
  case loadDelay | waitKeyPress | setDelay | setSound | addI | loadFont | storeBCD | storeRegisters | loadMemory =>
    simp only [encode, decode, decodeFamilyF, fieldOp_byte, fieldX_byte, fieldNN_byte]

/-- Two bytes, high byte first, decode as the word they are, and the bytes after them are handed back (R63, R80). -/
theorem decodeBytes_hi_lo (w : Word) (rest : List Byte) :
    decodeBytes (hiByte w :: loByte w :: rest) = (decode w).map fun i => (i, rest) := by
  rw [decodeBytes, joinBytes_hi_lo]

theorem decodeBytes_encodeBytes (i : Instr) (rest : List Byte) :
    decodeBytes (encodeBytes i ++ rest) = some (i, rest) := by
  have h := decodeBytes_hi_lo (encode i) rest
  rwa [decode_encode] at h

/-- Settles O1: the word by the decoder's arm for each instruction, the bytes because they are the word's. -/
theorem decodeOfEncodeIsTheInstruction : Obligations.DecodeOfEncodeIsTheInstruction := fun i rest =>
  ⟨decode_encode i, decodeBytes_encodeBytes i rest⟩

end Sys2Proof
end

section
/-! PROOFS. The fetch (R63, R110): the two bytes of the fetched word and its value, and that a byte stored where the next
instruction stands is fetched next (R73, R184). -/

namespace Sys2Proof

/-! ### A word of two bytes -/

theorem hiByte_append (hi lo : Byte) : hiByte (hi ++ lo) = hi := BitVec.extractLsb'_append_eq_left

theorem loByte_append (hi lo : Byte) : loByte (hi ++ lo) = lo := BitVec.extractLsb'_append_eq_right

/-- Bits 15:8 count 256 times. -/
theorem toNat_append_bytes (hi lo : Byte) : (hi ++ lo).toNat = hi.toNat * 256 + lo.toNat := by
  rw [BitVec.toNat_append, ← Nat.shiftLeft_add_eq_or_of_lt lo.isLt, Nat.shiftLeft_eq]

namespace Machine
variable (s : State)

/-! ### The bytes of the fetched word -/

@[simp] theorem hiByte_fetchWord : hiByte s.fetchWord = s.memRead s.pc.toNat := hiByte_append _ _

@[simp] theorem loByte_fetchWord : loByte s.fetchWord = s.memRead (s.pc + 1).toNat := loByte_append _ _

/-- `u16(pc + k)` is the 16-bit sum (R116). -/
theorem toNat_pc_add (k : Nat) : (s.pc + BitVec.ofNat 16 k).toNat = pcPlus s k := by
  rw [BitVec.toNat_add, BitVec.toNat_ofNat, Nat.add_mod_mod, pcPlus]

/-- Settles O5: the two reads of the fetch, at `pc` and at `u16(pc + 1)`, put together as a number. -/
theorem fetchIsBigEndianAndWraps : Obligations.FetchIsBigEndianAndWraps := by
  intro s
  calc s.fetchWord.toNat
      = (s.memRead s.pc.toNat).toNat * 256 + (s.memRead (s.pc + 1).toNat).toNat := toNat_append_bytes _ _
    _ = _ := by rw [show (s.pc + 1).toNat = pcPlus s 1 from toNat_pc_add s 1]; rfl

/-! ### A store where the next instruction stands -/

/-- After an instruction that continues at `u16(pc + 2)`, the next fetch reads there and one byte on (R110, R115). -/
theorem fetchWord_bytes_of_advance {s t : State} (h : advance s = .next t) :
    hiByte t.fetchWord = s.byteAt (a12 (pcPlus s 2)) ∧ loByte t.fetchWord = s.byteAt (a12 (pcPlus s 3)) := by
  rw [advance_eq] at h
  obtain rfl := Host.Outcome.next.inj h
  have hpc2 : (s.pc + 2).toNat = pcPlus s 2 := toNat_pc_add s 2
  have hpc3 : (s.pc + 2 + 1).toNat = pcPlus s 3 := by rw [BitVec.add_assoc]; exact toNat_pc_add s 3
  rw [hiByte_fetchWord, loByte_fetchWord, State.pc_setResult, State.pc_setPc, hpc2, hpc3]
  exact ⟨rfl, rfl⟩

/-- StoreRegisters writes its block and advances; `I` is kept (R184). -/
theorem exec_storeRegisters (x : RegIdx) :
    exec (.storeRegisters x) s = advance (s.memWriteBytes (s.dataAddr 0) (s.regBytes x)) := rfl

/-- The block of a StoreRegisters: V[r] at `a12(I + r)` for every r up to x (R184). -/
theorem byteAt_memWriteBytes_regBytes {x r : RegIdx} (hwf : s.memWf = true) (hr : r.toNat ≤ x.toNat) :
    (s.memWriteBytes (s.dataAddr 0) (s.regBytes x)).byteAt (a12 (s.dataAddr r.toNat)) = s.readV r := by
  have hlen := s.regBytes_length x
  have hj : r.toNat < (s.regBytes x).length := by omega
  have hbyte := s.byteAt_memWriteBytes (a := s.dataAddr 0) hwf (by simp only [Config.memSize]; omega) hj
  rwa [s.regBytes_getElem x _ hj, BitVec.ofNat_toNat, BitVec.setWidth_eq] at hbyte

/-- Settles O26: the next fetch reads the memory that holds the block, where V[r] stands at `a12(I + r)`. -/
theorem aStoreIsSeenByTheNextFetch : Obligations.AStoreIsSeenByTheNextFetch := by
  intro x r s t hwf hexec hr
  obtain ⟨hhi, hlo⟩ := fetchWord_bytes_of_advance ((exec_storeRegisters s x).symm.trans hexec)
  have hstored := byteAt_memWriteBytes_regBytes s hwf hr
  exact ⟨fun ha => hhi.trans (ha ▸ hstored), fun ha => hlo.trans (ha ▸ hstored)⟩

end Machine
end Sys2Proof
end

section
/-! PROOFS. The opcode map (R85–R95): every word that decodes is its instruction's encoding but for the y nibble of a
shift; and the rows are disjoint, because a family selects by the same bits in each of its rows. -/

namespace Sys2Proof

/-! ### The fields of a word -/

section
variable {w : Word} {o : BitVec 4}

theorem append_fieldNNN (hop : fieldOp w = o) : o ++ fieldNNN w = w := hop ▸ (word_eq_address w).symm

theorem append_fieldX_fieldNN (hop : fieldOp w = o) : o ++ fieldX w ++ fieldNN w = w := hop ▸ (word_eq_byte w).symm

theorem append_fieldX_fieldY_fieldN (hop : fieldOp w = o) : o ++ fieldX w ++ fieldY w ++ fieldN w = w :=
  hop ▸ (word_eq_nibbles w).symm

end

/-! ### A mask on a word -/

section
variable {w m : Word}

/-- A mask with all the bits of a field keeps the field. -/
theorem extractLsb'_and_of_mask {start len : Nat} (hm : m.extractLsb' start len = BitVec.allOnes len) :
    (w &&& m).extractLsb' start len = w.extractLsb' start len := by
  rw [BitVec.extractLsb'_and, hm, BitVec.and_allOnes]

theorem fieldOp_and_of_mask (hm : fieldOp m = 0xF) : fieldOp (w &&& m) = fieldOp w := extractLsb'_and_of_mask hm

theorem fieldX_and_of_mask (hm : fieldX m = 0xF) : fieldX (w &&& m) = fieldX w := extractLsb'_and_of_mask hm

theorem fieldN_and_of_mask (hm : fieldN m = 0xF) : fieldN (w &&& m) = fieldN w := extractLsb'_and_of_mask hm

theorem fieldNN_and_of_mask (hm : fieldNN m = 0xFF) : fieldNN (w &&& m) = fieldNN w := extractLsb'_and_of_mask hm

end

/-! ### The encoding of a decoded word -/

/-- The bits of its word that an instruction is decoded from: all, but for the y nibble of a shift (R93). -/
def Instr.decodedBits : Instr → Word
  | .shiftRight _ | .shiftLeft _ => 0xFF0F
  | _ => BitVec.allOnes 16

theorem decodedBits_of_not_shift {i : Instr} (h : ∀ x, i ≠ .shiftRight x ∧ i ≠ .shiftLeft x) :
    i.decodedBits = BitVec.allOnes 16 := by
  cases i
  case shiftRight x => exact absurd rfl (h x).1
  case shiftLeft x => exact absurd rfl (h x).2
  all_goals rfl

/-- What is left of a word without its y nibble. -/
theorem nibbles_and_clear_y (o x y n : BitVec 4) :
    (o ++ x ++ y ++ n) &&& (0xFF0F : Word) = o ++ x ++ (0x0#4 ++ n) := by
  have hy : fieldY ((o ++ x ++ y ++ n) &&& (0xFF0F : Word)) = 0x0#4 := BitVec.extractLsb'_and.trans BitVec.and_zero
  calc (o ++ x ++ y ++ n) &&& (0xFF0F : Word)
      = o ++ x ++ 0x0#4 ++ n := by
        rw [word_eq_nibbles (_ &&& _), hy, fieldOp_and_of_mask (by rfl), fieldX_and_of_mask (by rfl),
          fieldN_and_of_mask (by rfl), fieldOp_nibbles, fieldX_nibbles, fieldN_nibbles]
    _ = o ++ x ++ (0x0#4 ++ n) := BitVec.append_assoc

theorem encode_of_decodeFamily0 {nnn : Addr12} {i : Instr} (h : decodeFamily0 nnn = some i) :
    encode i = (0x0#4 ++ nnn) &&& i.decodedBits := by
  unfold decodeFamily0 at h
  split at h <;> cases h <;> rfl

theorem encode_of_decodeFamily8 {x y : RegIdx} {n : Height} {i : Instr} (h : decodeFamily8 x y n = some i) :
    encode i = (0x8#4 ++ x ++ y ++ n) &&& i.decodedBits := by
  unfold decodeFamily8 at h
  split at h <;> cases h
  case h_7 => exact (nibbles_and_clear_y 0x8#4 x y 0x6#4).symm
  case h_9 => exact (nibbles_and_clear_y 0x8#4 x y 0xE#4).symm
  all_goals exact BitVec.and_allOnes.symm

theorem encode_of_decodeFamilyE {x : RegIdx} {nn : Byte} {i : Instr} (h : decodeFamilyE x nn = some i) :
    encode i = (0xE#4 ++ x ++ nn) &&& i.decodedBits := by
  unfold decodeFamilyE at h
  split at h <;> cases h <;> exact BitVec.and_allOnes.symm

theorem encode_of_decodeFamilyF {x : RegIdx} {nn : Byte} {i : Instr} (h : decodeFamilyF x nn = some i) :
    encode i = (0xF#4 ++ x ++ nn) &&& i.decodedBits := by
  unfold decodeFamilyF at h
  split at h <;> cases h <;> exact BitVec.and_allOnes.symm

/-- A word that decodes is the encoding of its instruction, but for the bits the decoder ignores (R93). -/
theorem encode_of_decode {w : Word} {i : Instr} (h : decode w = some i) : encode i = w &&& i.decodedBits := by
  unfold decode at h
  split at h
  case h_1 hop => exact append_fieldNNN hop ▸ encode_of_decodeFamily0 h
  case h_9 hop => exact append_fieldX_fieldY_fieldN hop ▸ encode_of_decodeFamily8 h
  case h_15 hop => exact append_fieldX_fieldNN hop ▸ encode_of_decodeFamilyE h
  case h_16 hop => exact append_fieldX_fieldNN hop ▸ encode_of_decodeFamilyF h
  case h_17 => cases h
  case h_6 hop | h_10 hop =>
    obtain ⟨hn, hi⟩ := Option.ite_none_right_eq_some.1 h
    cases hi
    exact (hn ▸ append_fieldX_fieldY_fieldN hop).trans BitVec.and_allOnes.symm
  case h_2 hop | h_3 hop | h_11 hop | h_12 hop =>
    cases h
    exact (append_fieldNNN hop).trans BitVec.and_allOnes.symm
  case h_4 hop | h_5 hop | h_7 hop | h_8 hop | h_13 hop =>
    cases h
    exact (append_fieldX_fieldNN hop).trans BitVec.and_allOnes.symm
  case h_14 hop =>
    cases h
    exact (append_fieldX_fieldY_fieldN hop).trans BitVec.and_allOnes.symm

theorem decode_shiftRight (x y : RegIdx) : decode (0x8#4 ++ x ++ y ++ 0x6#4) = some (.shiftRight x) := by
  simp only [decode, decodeFamily8, fieldOp_nibbles, fieldX_nibbles, fieldN_nibbles]

theorem decode_shiftLeft (x y : RegIdx) : decode (0x8#4 ++ x ++ y ++ 0xE#4) = some (.shiftLeft x) := by
  simp only [decode, decodeFamily8, fieldOp_nibbles, fieldX_nibbles, fieldN_nibbles]

/-- Settles O2: a shift is decoded whatever its y nibble holds, and a decoded word is its instruction's encoding on the
bits that the instruction is decoded from. -/
theorem onlyTheShiftsIgnoreTheirYField : Obligations.OnlyTheShiftsIgnoreTheirYField := by
  refine ⟨fun x y => ⟨decode_shiftRight x y, decode_shiftLeft x y⟩, fun w i h => ⟨?_, fun hi => ?_⟩⟩
  · rintro ⟨x, rfl | rfl⟩ <;> exact encode_of_decode h
  · rw [encode_of_decode h, decodedBits_of_not_shift hi, BitVec.and_allOnes]

/-! ### The rows -/

/-- The bits by which the family of a dispatch nibble selects its instructions (R85–R91). -/
def selectMask (op : BitVec 4) : Word :=
  match op with
  | 0x0#4 => 0xFFFF
  | 0x5#4 | 0x8#4 | 0x9#4 => 0xF00F
  | 0xE#4 | 0xF#4 => 0xF0FF
  | _ => 0xF000

/-- Every family is found by the dispatch nibble first (R85). -/
theorem fieldOp_and_selectMask (w : Word) (o : BitVec 4) : fieldOp (w &&& selectMask o) = fieldOp w :=
  fieldOp_and_of_mask ((by decide : ∀ o, fieldOp (selectMask o) = 0xF) o)

theorem mask_of_mem_opcodeRows : ∀ r ∈ opcodeRows, r.mask = selectMask (fieldOp r.code) := by decide

theorem decode_code_of_mem_opcodeRows : ∀ r ∈ opcodeRows, decode r.code ≠ none := by decide

/-- A word stands in the family of a row it matches, so the row's mask is the family's. -/
theorem mask_of_match {w : Word} {r : OpcodeRow} (hr : r ∈ opcodeRows) (h : w &&& r.mask = r.code) :
    r.mask = selectMask (fieldOp w) := by
  have hmask := mask_of_mem_opcodeRows r hr
  have hop : fieldOp r.code = fieldOp w := by rw [← h, hmask, fieldOp_and_selectMask]
  rw [hmask, hop]

theorem row_eq_of_matches {w : Word} {r₁ r₂ : OpcodeRow} (hr₁ : r₁ ∈ opcodeRows) (hr₂ : r₂ ∈ opcodeRows)
    (h₁ : w &&& r₁.mask = r₁.code) (h₂ : w &&& r₂.mask = r₂.code) : r₁ = r₂ := by
  have hmask : r₁.mask = r₂.mask := (mask_of_match hr₁ h₁).trans (mask_of_match hr₂ h₂).symm
  have hcode : r₁.code = r₂.code := by rw [← h₁, ← h₂, hmask]
  exact congr (congrArg OpcodeRow.mk hcode) hmask

/-! ### Whether a word decodes -/

/-! Families 8, E and F refuse by their sub-opcode alone, whatever the register fields hold (R89–R91). -/

theorem decodeFamily8_eq_none {x y : RegIdx} {n : Height} (x' y' : RegIdx) (h : decodeFamily8 x y n = none) :
    decodeFamily8 x' y' n = none := by
  unfold decodeFamily8 at h ⊢
  split at h
  case h_10 => rfl
  all_goals cases h

theorem decodeFamilyE_eq_none {x : RegIdx} {nn : Byte} (x' : RegIdx) (h : decodeFamilyE x nn = none) :
    decodeFamilyE x' nn = none := by
  unfold decodeFamilyE at h ⊢
  split at h
  case h_3 => rfl
  all_goals cases h

theorem decodeFamilyF_eq_none {x : RegIdx} {nn : Byte} (x' : RegIdx) (h : decodeFamilyF x nn = none) :
    decodeFamilyF x' nn = none := by
  unfold decodeFamilyF at h ⊢
  split at h
  case h_10 => rfl
  all_goals cases h

/-- A refused word is refused by the bits its family selects by (R85–R91). -/
theorem decode_and_selectMask_eq_none {w : Word} (h : decode w = none) :
    decode (w &&& selectMask (fieldOp w)) = none := by
  rw [decode, fieldOp_and_selectMask]
  unfold decode at h
  split at h
  case h_1 hop =>
    rw [hop]
    exact (congrArg (decodeFamily0 ∘ fieldNNN) BitVec.and_allOnes).trans h
  case h_6 hop | h_10 hop =>
    rw [hop, fieldN_and_of_mask (by rfl)]
    simpa using h
  case h_9 hop =>
    rw [hop, fieldN_and_of_mask (by rfl)]
    exact decodeFamily8_eq_none _ _ h
  case h_15 hop =>
    rw [hop, fieldNN_and_of_mask (by rfl)]
    exact decodeFamilyE_eq_none _ h
  case h_16 hop =>
    rw [hop, fieldNN_and_of_mask (by rfl)]
    exact decodeFamilyF_eq_none _ h
  case h_17 => rfl
  all_goals cases h

/-- A word that matches a row decodes, because the row's own code does. -/
theorem decode_ne_none_of_match {w : Word} {r : OpcodeRow} (hr : r ∈ opcodeRows) (h : w &&& r.mask = r.code) :
    decode w ≠ none := by
  intro hnone
  have hcode : decode r.code = none := by
    rw [← h, mask_of_match hr h]
    exact decode_and_selectMask_eq_none hnone
  exact decode_code_of_mem_opcodeRows r hr hcode

/-- The lemmas of `Laws.RowMatch`, one per constructor, as one. -/
theorem rowMatch : ∀ i : Instr, Laws.RowMatch.Statement i
  | .clearDisplay => Laws.RowMatch.clearDisplay
  | .ret => Laws.RowMatch.ret
  | .jump _ => Laws.RowMatch.jump _
  | .call _ => Laws.RowMatch.call _
  | .skipEqual _ _ => Laws.RowMatch.skipEqual _ _
  | .skipNotEqual _ _ => Laws.RowMatch.skipNotEqual _ _
  | .skipEqualXY _ _ => Laws.RowMatch.skipEqualXY _ _
  | .load _ _ => Laws.RowMatch.load _ _
  | .add _ _ => Laws.RowMatch.add _ _
  | .move _ _ => Laws.RowMatch.move _ _
  | .or _ _ => Laws.RowMatch.or _ _
  | .and _ _ => Laws.RowMatch.and _ _
  | .xor _ _ => Laws.RowMatch.xor _ _
  | .addXY _ _ => Laws.RowMatch.addXY _ _
  | .subXY _ _ => Laws.RowMatch.subXY _ _
  | .shiftRight _ => Laws.RowMatch.shiftRight _
  | .subYX _ _ => Laws.RowMatch.subYX _ _
  | .shiftLeft _ => Laws.RowMatch.shiftLeft _
  | .skipNotEqualXY _ _ => Laws.RowMatch.skipNotEqualXY _ _
  | .loadI _ => Laws.RowMatch.loadI _
  | .jumpV0 _ => Laws.RowMatch.jumpV0 _
  | .random _ _ => Laws.RowMatch.random _ _
  | .draw _ _ _ => Laws.RowMatch.draw _ _ _
  | .skipKeyPressed _ => Laws.RowMatch.skipKeyPressed _
  | .skipKeyNotPressed _ => Laws.RowMatch.skipKeyNotPressed _
  | .loadDelay _ => Laws.RowMatch.loadDelay _
  | .waitKeyPress _ => Laws.RowMatch.waitKeyPress _
  | .setDelay _ => Laws.RowMatch.setDelay _
  | .setSound _ => Laws.RowMatch.setSound _
  | .addI _ => Laws.RowMatch.addI _
  | .loadFont _ => Laws.RowMatch.loadFont _
  | .storeBCD _ => Laws.RowMatch.storeBCD _
  | .storeRegisters _ => Laws.RowMatch.storeRegisters _
  | .loadMemory _ => Laws.RowMatch.loadMemory _

/-- The bits a row fixes are among those its instructions are decoded from. -/
theorem decodedBits_and_row_mask (i : Instr) : i.decodedBits &&& i.row.mask = i.row.mask := by
  cases i
  case shiftRight | shiftLeft => exact (by decide : (0xFF0F &&& 0xF00F : Word) = 0xF00F)
  all_goals exact BitVec.allOnes_and

theorem row_of_decode {w : Word} {i : Instr} (h : decode w = some i) :
    i.row ∈ opcodeRows ∧ w &&& i.row.mask = i.row.code := by
  obtain ⟨hmem, hselects⟩ := rowMatch i
  refine ⟨hmem, ?_⟩
  calc w &&& i.row.mask
      = (w &&& i.decodedBits) &&& i.row.mask := by rw [BitVec.and_assoc, decodedBits_and_row_mask]
    _ = encode i &&& i.row.mask := by rw [encode_of_decode h]
    _ = i.row.code := eq_of_beq hselects

/-- Settles O3: the rows a word matches have the mask of its family, so they have one code; a matching word decodes as
the row's code does; and a decoded word matches its instruction's row, as the encoding does. -/
theorem rowsAreDisjointAndDecodeFollowsThem : Obligations.RowsAreDisjointAndDecodeFollowsThem := by
  refine ⟨fun w r₁ r₂ => row_eq_of_matches, fun w => ⟨fun h r hr hmatch => ?_, fun h => ?_⟩, fun w i => row_of_decode⟩
  · exact decode_ne_none_of_match hr hmatch h
  · refine Option.eq_none_iff_forall_ne_some.2 fun i hi => ?_
    obtain ⟨hmem, hmatch⟩ := row_of_decode hi
    exact h _ hmem hmatch

/-! ### Sample words -/

/-- Settles O4: each word is the encoding of its instruction, but for `0x84A6`, a shift with y = 0xA (R93), and `0x5001`,
which matches no row (R88). -/
theorem sampleWordsAreDecodedRight : Obligations.SampleWordsAreDecodedRight :=
  ⟨decode_encode .clearDisplay, decode_encode .ret, decode_encode (.jump 0x208), decode_encode (.skipEqual 1 0x05),
    decode_encode (.skipNotEqualXY 1 2), decode_encode (.addXY 1 2), decode_shiftRight 4 0xA, decode_encode (.loadI 0x300),
    decode_encode (.draw 0 1 5), decode_encode (.skipKeyNotPressed 5), decode_encode (.storeBCD 7), by decide⟩

end Sys2Proof
end

section
/-! PROOFS. The whole cycle (R111–R113, R290): a cycle always answers next, and one whose step executes an instruction
is that instruction's `exec`, then the tick and the DIRTY update. -/

namespace Sys2Proof.Machine
variable {s t : State}

/-! ### Every cycle answers next -/

theorem exists_next_of_exec (i : Instr) (s : State) : ∃ t, exec i s = .next t :=
  have ⟨_, _, _, _, hexec⟩ := execUpdates i s
  ⟨_, hexec⟩

theorem exists_next_of_runStep (s : State) : ∃ t, runStep s = .next t := by
  by_cases hrun : s.faultCode = 0
  · obtain ⟨t, ht, -⟩ := aStepContinuesWaitsOrFaults s hrun
    exact ⟨t, ht⟩
  · exact ⟨_, runStep_of_faulted s hrun⟩

theorem exists_next_of_stepPhase (p : Ports) (s : State) : ∃ t, stepPhase p s = .next t := by
  unfold stepPhase
  split
  · exact exists_next_of_runStep s
  · exact ⟨_, rfl⟩

theorem exists_next_of_step (s : State) : ∃ t, step s = .next t := by
  unfold step
  cases hrst : s.ports.rst with
  | true => exact ⟨_, clockCycle_of_rst s _ hrst⟩
  | false =>
    cases hclr : s.ports.anyClear with
    | true => exact ⟨_, clockCycle_of_clear s _ hrst hclr⟩
    | false =>
      obtain ⟨u, hu⟩ := exists_next_of_stepPhase s.ports s.afterLoad
      exact ⟨_, (clockCycle_of_run s _ hrst hclr).trans (mapNext_eq_next.2 ⟨u, hu, rfl⟩)⟩

/-! ### The model's own schedule, and the fault code 4 -/

theorem env_not_mem_mayWrite (i : Instr) : Part.env ∉ mayWrite i := by cases i <;> simp [mayWrite]

/-- The schedule is in no instruction's list of written parts. -/
theorem exec_env {i : Instr} (h : exec i s = .next t) : t.inputs = s.inputs ∧ t.cycle = s.cycle :=
  instructionsWriteOnlyTheirParts i s t h .env (env_not_mem_mayWrite i)

theorem StepPhase.env {p : Ports} (h : StepPhase p s t) : t.inputs = s.inputs ∧ t.cycle = s.cycle := by
  cases h with
  | idle _ ht => subst ht; exact ⟨rfl, rfl⟩
  | unmatched _ _ _ ht => subst ht; exact ⟨rfl, rfl⟩
  | executes i _ hexec => exact exec_env hexec

/-- Of the updates only a fault writes FAULT_CODE, with one of the codes 1, 2 and 3 (R121, R243). -/
theorem Updates.faultCode_ne_four {i : Instr} {u : State} (h : Updates i s u) (hs : s.faultCode ≠ 4) :
    u.faultCode ≠ 4 := by
  cases h with
  | latch f w hpart hcode =>
    intro h4
    have hcode4 : f.code.toNat = 4 := congrArg BitVec.toNat h4
    omega
  | _ => exact hs

theorem exec_faultCode_ne_four {i : Instr} (h : exec i s = .next t) (hs : s.faultCode ≠ 4) : t.faultCode ≠ 4 := by
  obtain ⟨u, w, r, hu, rfl⟩ := updates_of_exec h
  exact hu.faultCode_ne_four hs

theorem StepPhase.faultCode_ne_four {p : Ports} (h : StepPhase p s t) (hs : s.faultCode ≠ 4) : t.faultCode ≠ 4 := by
  cases h with
  | idle _ ht => subst ht; exact hs
  | unmatched _ _ _ ht => subst ht; simp [FaultKind.code]
  | executes i _ hexec => exact exec_faultCode_ne_four hexec hs

/-- Settles O9: each branch of a cycle uses up one port record, and none writes the code 4. -/
theorem everyCycleAnswersNext : Obligations.EveryCycleAnswersNext := by
  intro s
  obtain ⟨t, h⟩ := exists_next_of_step s
  refine ⟨t, h, ?_⟩
  cases step_cases h with
  | reset _ ht =>
    have hreset : (0 : BitVec 3) ≠ 4 := by decide
    subst ht
    exact ⟨rfl, rfl, fun _ => hreset⟩
  | clears _ _ ht => simp [ht]
  | runs _ u hphase ht =>
    obtain ⟨hinputs, hcycle⟩ := hphase.env
    have hcode := hphase.faultCode_ne_four
    subst ht
    exact ⟨by simp [hinputs], by simp [hcycle], by simpa using hcode⟩

/-! ### A cycle that executes an instruction -/

/-- A cycle that executes an instruction: the instruction's own effect on the memory the load port left, then the tick
and the DIRTY update (R113, R290). -/
theorem step_of_executes {i : Instr} (h : s.Executes i) (hexec : exec i s.afterLoad = .next t) :
    step s = .next (t.afterStep s.ports (marksFrame i)) := by
  obtain ⟨⟨⟨hrst, hclr⟩, hstep⟩, hrun, hd⟩ := h
  have hrun' : s.afterLoad.faultCode = 0 := (s.faultCode_loadPort s.ports).trans hrun
  have hi : s.afterLoad.executes s.ports = some i := (State.executes_eq_some _ _).2 ⟨hstep, hrun', hd⟩
  have hphase : stepPhase s.ports s.afterLoad = .next t :=
    calc stepPhase s.ports s.afterLoad
        = runStep s.afterLoad := if_pos hstep
      _ = exec i s.afterLoad := runStep_of_decode _ hrun' hd
      _ = .next t := hexec
  rw [step, clockCycle_of_run s _ hrst hclr, hi, hphase]
  rfl

/-- The instructions that mark the frame dirty are ClearDisplay and Draw (R32). -/
theorem marksFrame_iff (i : Instr) : marksFrame i = true ↔ i = .clearDisplay ∨ ∃ x y n, i = .draw x y n := by
  cases i <;> simp [marksFrame]

theorem ticked_timer (p : Ports) (b : Byte) : (if p.tick = true then decTimer b else b).toNat = ticked p b.toNat := by
  unfold ticked
  split
  · exact decTimer_toNat b
  · rfl

/-- Settles O6: the phases after the step write only the timers, DIRTY and the schedule. -/
theorem stepRunsTheDecodedInstruction : Obligations.StepRunsTheDecodedInstruction := by
  intro s i t hsteps hrun hd hexec
  obtain ⟨hinputs, hcycle⟩ := exec_env hexec
  refine ⟨_, step_of_executes ⟨hsteps, hrun, hd⟩ hexec, by simp, by simp, ?_, ?_, ?_, ?_, ?_⟩
  · rw [State.dt_afterStep, ticked_timer]
  · rw [State.st_afterStep, ticked_timer]
  · simp only [State.dirty_afterStep, marksFrame_iff]
  · rw [State.inputs_afterStep, hinputs, State.inputs_loadPort]
  · rw [State.cycle_afterStep, hcycle, State.cycle_loadPort]

/-- A cycle that waits for a key: without tick, `dirty_clr` and load it writes `result` and the schedule only (R120). -/
theorem step_of_waiting {x : RegIdx} (h : s.Executes (.waitKeyPress x)) (hkey : s.ports.keyValid = false)
    (htick : s.ports.tick = false) (hdirty : s.ports.dirtyClr = false) (hld : s.ports.ldWe = false) :
    step s = .next (s.setResult .waiting).endCycle := by
  have hload : s.afterLoad = s := s.loadPort_of_not_ldWe _ hld
  have hexec : exec (.waitKeyPress x) s.afterLoad = .next (s.setResult .waiting) := by
    rw [hload]
    exact execWaitKeyPress_of_no_key x hkey
  rw [step_of_executes h hexec]
  simp [State.afterStep, State.tickTimers, State.updateDirty, State.clearDirty, marksFrame, htick, hdirty]

theorem sameBut_setResult_endCycle (s : State) (r : StepResult) : SameBut [.env] s (s.setResult r).endCycle := by
  intro part hpart
  cases part <;> simp_all [Part.Same]

/-- Settles O35: the waiting cycle leaves `pc` and memory, which are all that the fetch reads. -/
theorem aWaitingCycleIsRefetched : Obligations.AWaitingCycleIsRefetched := by
  intro x s h hkey htick hdirty hld
  exact ⟨_, step_of_waiting h hkey htick hdirty hld, rfl, rfl, rfl, sameBut_setResult_endCycle s _⟩

/-! ### A placed word -/

@[simp] theorem tableWord_toNat (w : Word) : tableWord 16 w.toNat = w := by
  rw [tableWord, Nat.mod_eq_of_lt w.isLt, BitVec.ofNat_toNat, BitVec.setWidth_eq]

theorem decodeTableWord_toNat (w : Word) : decodeTableWord 16 w.toNat = decode w := by
  rw [decodeTableWord, tableWord_toNat, decodeBytes_hi_lo, Option.map_map]
  exact congrFun Option.map_id _

theorem fetchWord_withFetchWord (w : Word) (h : s.memWf = true) : (s.withFetchWord 16 w.toNat).fetchWord = w := by
  rw [State.withFetchWord, tableWord_toNat]
  exact s.fetchWord_placeWord w h

theorem afterLoad_withFetchWord (s : State) (nbits w : Nat) :
    (s.withFetchWord nbits w).afterLoad = s.withFetchWord nbits w :=
  State.loadPort_of_not_ldWe _ _ (State.ports_readyToStep_running _).2

/-- The cycle after a word is placed executes what the word decodes to (entry 9). -/
theorem executes_withFetchWord {w : Word} {i : Instr} (h : s.memWf = true) (hd : decode w = some i) :
    (s.withFetchWord 16 w.toNat).Executes i := by
  refine ⟨(State.ports_readyToStep_running _).1, rfl, ?_⟩
  rw [afterLoad_withFetchWord, fetchWord_withFetchWord w h, hd]

/-- Settles O7: the cycle executes the placed word's instruction, and what follows the step writes none of these
fields. -/
theorem aPlacedWordIsRunNext : Obligations.APlacedWordIsRunNext := by
  intro s w i t hwf hd hexec
  refine ⟨(decodeTableWord_toNat w).trans hd, _,
    step_of_executes (executes_withFetchWord hwf hd) ((afterLoad_withFetchWord s _ _).symm ▸ hexec), ?_⟩
  simp

end Sys2Proof.Machine
end

section
/-! PROOFS. The next pc (R116): what each operation that ends a step writes to `pc`, and from it the table. -/

namespace Sys2Proof.Machine
variable {s t u : State}

/-! ### The operations that end a step -/

theorem pc_of_continueAt {target : Word} (h : continueAt target u = .next t) : t.pc = target := by
  obtain rfl := Host.Outcome.next.inj ((continueAt_eq u target).symm.trans h)
  rfl

/-- `u16(pc + 2)` (R115), whatever else the instruction wrote. -/
theorem pc_of_advance (h : advance u = .next t) (hpc : u.pc = s.pc) : t.pc.toNat = pcPlus s 2 := by
  rw [pc_of_continueAt h, hpc]
  exact toNat_pc_add s 2

theorem pc_of_skipIf {c : Bool} (h : skipIf c s = .next t) :
    t.pc.toNat = if c = true then pcPlus s 4 else pcPlus s 2 := by
  rw [pc_of_continueAt h]
  split
  · exact toNat_pc_add s 4
  · exact toNat_pc_add s 2

/-- A step that ends in FAULT wrote no `pc` (R244). -/
theorem pc_of_exec_faulted {i : Instr} (h : exec i s = .next t) (hres : t.result = .faulted) : t.pc = s.pc := by
  cases execEnds i s with
  | continues target u hexec =>
    obtain rfl := Host.Outcome.next.inj (hexec.symm.trans h)
    cases hres
  | waits x hi hkey hexec | underflows hi hsp hexec | overflows nnn hi hsp hexec =>
    obtain rfl := Host.Outcome.next.inj (hexec.symm.trans h)
    rfl

/-! ### The operands of the table -/

theorem toNat_addrOperand (nnn : Addr12) : (addrOperand nnn).toNat = nnn.toNat :=
  BitVec.toNat_setWidth_of_le (by decide)

theorem toNat_zext16 (b : Byte) : (zext16 b).toNat = b.toNat := BitVec.toNat_setWidth_of_le (by decide)

/-- `key()` is v: a key is pressed, and its code is v as a number (R220). -/
theorem keyIs_key_iff (p : Ports) (v : Byte) :
    keyIs p.key v = true ↔ p.keyValid = true ∧ p.keyCode.toNat = v.toNat := by
  have hcode : p.keyCode.setWidth 8 = v ↔ p.keyCode.toNat = v.toNat := by
    rw [← BitVec.toNat_inj, BitVec.toNat_setWidth_of_le (by decide)]
  cases hkey : p.keyValid <;> simp [Ports.key, keyIs, hkey, hcode]

theorem pc_loadRegs (s : State) (addr n : Nat) : (s.loadRegs addr n).pc = s.pc := by
  obtain ⟨v, hv⟩ := s.loadRegs_eq addr n
  rw [hv]

/-! ### The table -/

theorem pc_of_execRet (h : execRet s = .next t) (hres : t.result ≠ .faulted) : t.pc = s.readStack (s.sp - 1) := by
  by_cases hsp : s.sp = 0
  · rw [execRet_of_empty hsp] at h
    obtain rfl := Host.Outcome.next.inj h
    exact absurd rfl hres
  · exact pc_of_continueAt ((execRet_of_nonempty hsp).symm.trans h)

theorem pc_of_execCall {nnn : Addr12} (h : execCall nnn s = .next t) (hres : t.result ≠ .faulted) :
    t.pc = addrOperand nnn := by
  by_cases hsp : s.sp = 16
  · rw [execCall_of_full nnn hsp] at h
    obtain rfl := Host.Outcome.next.inj h
    exact absurd rfl hres
  · exact pc_of_continueAt ((execCall_of_room nnn hsp).symm.trans h)

theorem pc_of_execWaitKeyPress {x : RegIdx} (h : execWaitKeyPress x s = .next t) :
    t.pc.toNat = if s.ports.keyValid = true then pcPlus s 2 else s.pc.toNat := by
  cases hkey : s.ports.keyValid with
  | false =>
    rw [execWaitKeyPress_of_no_key x hkey] at h
    obtain rfl := Host.Outcome.next.inj h
    rfl
  | true =>
    rw [execWaitKeyPress_of_key x hkey] at h
    exact pc_of_advance h rfl

theorem pc_of_exec {i : Instr} (h : exec i s = .next t) (hres : t.result ≠ .faulted) :
    t.pc.toNat = tableNextPc s i := by
  cases i
  case ret => exact congrArg BitVec.toNat (pc_of_execRet h hres)
  case call nnn => exact (congrArg BitVec.toNat (pc_of_execCall h hres)).trans (toNat_addrOperand nnn)
  case waitKeyPress x => exact pc_of_execWaitKeyPress h
  case jump nnn => exact (congrArg BitVec.toNat (pc_of_continueAt h)).trans (toNat_addrOperand nnn)
  case jumpV0 nnn =>
    rw [pc_of_continueAt h, BitVec.toNat_add, toNat_addrOperand, toNat_zext16]
    rfl
  case skipEqual | skipNotEqual | skipEqualXY | skipNotEqualXY => simpa [tableNextPc] using pc_of_skipIf h
  case skipKeyPressed => simpa [tableNextPc, keyIs_key_iff] using pc_of_skipIf h
  case skipKeyNotPressed =>
    have hpc := pc_of_skipIf h
    simp only [Bool.not_eq_true', ← Bool.not_eq_true, keyIs_key_iff, ite_not] at hpc
    exact hpc
  case loadMemory x => exact pc_of_advance h (pc_loadRegs s _ _)
  all_goals exact pc_of_advance h rfl

/-- Settles O10: the table for a decoded word, and no `pc` written by a fault, whether the instruction raises it or the
word does not decode. -/
theorem nextPcFollowsTheTable : Obligations.NextPcFollowsTheTable := by
  refine ⟨fun i s t h => ⟨pc_of_exec h, pc_of_exec_faulted h⟩, fun s t hrun h hres => ?_⟩
  cases hd : decode s.fetchWord with
  | none =>
    rw [runStep_of_none s hrun hd] at h
    obtain rfl := Host.Outcome.next.inj h
    rfl
  | some i => exact pc_of_exec_faulted ((runStep_of_decode s hrun hd).symm.trans h) hres

end Sys2Proof.Machine
end

section
/-! PROOFS. The schedule of port records (R119; entry 1): no phase of a cycle looks at a record but the first. Each
operation on a state with another schedule gives what it gave, with that schedule. -/

namespace Sys2Proof.Machine

/-- The state with another schedule of port records. -/
def State.withInputs (s : State) (ps : List Ports) : State := { s with inputs := ps }

/-- The outcome with another schedule in its next state. -/
def rescheduled (ps : List Ports) (o : Result) : Result := mapNext (fun t => t.withInputs ps) o

section
variable (s : State) (ps : List Ports)

@[simp] theorem rescheduled_next : rescheduled ps (.next s) = .next (s.withInputs ps) := rfl

/-! ### An instruction -/

theorem loadRegs_withInputs (addr n : Nat) :
    (s.withInputs ps).loadRegs addr n = (s.loadRegs addr n).withInputs ps := by
  induction n with
  | zero => rfl
  | succ n ih => rw [State.loadRegs, ih]; rfl

theorem execRet_withInputs : execRet (s.withInputs ps) = rescheduled ps (execRet s) := by
  by_cases hsp : s.sp = 0
  · rw [execRet_of_empty hsp, execRet_of_empty (s := s.withInputs ps) hsp]
    rfl
  · rw [execRet_of_nonempty hsp, execRet_of_nonempty (s := s.withInputs ps) hsp]
    rfl

theorem execCall_withInputs (nnn : Addr12) :
    execCall nnn (s.withInputs ps) = rescheduled ps (execCall nnn s) := by
  by_cases hsp : s.sp = 16
  · rw [execCall_of_full nnn hsp, execCall_of_full nnn (s := s.withInputs ps) hsp]
    rfl
  · rw [execCall_of_room nnn hsp, execCall_of_room nnn (s := s.withInputs ps) hsp]
    rfl

theorem execLoadMemory_withInputs (x : RegIdx) :
    execLoadMemory x (s.withInputs ps) = rescheduled ps (execLoadMemory x s) := by
  simp only [execLoadMemory]
  rw [show (s.withInputs ps).dataAddr 0 = s.dataAddr 0 from rfl, loadRegs_withInputs]
  rfl

variable {s ps}

theorem execWaitKeyPress_withInputs (x : RegIdx) (hkey : (s.withInputs ps).ports.key = s.ports.key) :
    execWaitKeyPress x (s.withInputs ps) = rescheduled ps (execWaitKeyPress x s) := by
  simp only [execWaitKeyPress, hkey]
  cases s.ports.key <;> rfl

/-- An instruction uses the schedule only for the key, when it is one of the three key instructions, and for the random
byte, when it is Random (R263, R264). -/
theorem exec_withInputs {i : Instr} (hkey : readsKey i = true → (s.withInputs ps).ports.key = s.ports.key)
    (hrnd : (∃ x nn, i = .random x nn) → (s.withInputs ps).ports.rnd = s.ports.rnd) :
    exec i (s.withInputs ps) = rescheduled ps (exec i s) := by
  cases i
  case ret => exact execRet_withInputs s ps
  case call nnn => exact execCall_withInputs s ps nnn
  case loadMemory x => exact execLoadMemory_withInputs s ps x
  case waitKeyPress x => exact execWaitKeyPress_withInputs x (hkey rfl)
  case skipKeyPressed | skipKeyNotPressed =>
    simp only [exec, execSkipKeyPressed, execSkipKeyNotPressed, hkey rfl]
    rfl
  case random x nn =>
    simp only [exec, execRandom, hrnd ⟨x, nn, rfl⟩]
    rfl
  all_goals rfl

/-! ### The phases of a cycle -/

theorem runStep_withInputs (hports : (s.withInputs ps).ports = s.ports) :
    runStep (s.withInputs ps) = rescheduled ps (runStep s) := by
  by_cases hrun : s.faultCode = 0
  · cases hd : decode s.fetchWord with
    | none =>
      rw [runStep_of_none s hrun hd, runStep_of_none (s.withInputs ps) hrun hd]
      rfl
    | some i =>
      rw [runStep_of_decode s hrun hd, runStep_of_decode (s.withInputs ps) hrun hd]
      exact exec_withInputs (fun _ => congrArg Ports.key hports) (fun _ => congrArg Ports.rnd hports)
  · rw [runStep_of_faulted s hrun, runStep_of_faulted (s.withInputs ps) hrun]
    rfl

theorem stepPhase_withInputs (p : Ports) (hports : (s.withInputs ps).ports = s.ports) :
    stepPhase p (s.withInputs ps) = rescheduled ps (stepPhase p s) := by
  unfold stepPhase
  split
  · exact runStep_withInputs hports
  · rfl

variable (s ps) (p : Ports)

theorem loadPort_withInputs : (s.withInputs ps).loadPort p = (s.loadPort p).withInputs ps := by
  unfold State.loadPort
  split <;> rfl

theorem clearDirty_withInputs : (s.withInputs ps).clearDirty p = (s.clearDirty p).withInputs ps := by
  unfold State.clearDirty
  split <;> rfl

theorem tickTimers_withInputs : (s.withInputs ps).tickTimers p = (s.tickTimers p).withInputs ps := by
  unfold State.tickTimers
  split <;> rfl

theorem updateDirty_withInputs (drew : Bool) :
    (s.withInputs ps).updateDirty p drew = (s.updateDirty p drew).withInputs ps := by
  cases drew with
  | true => rfl
  | false => exact clearDirty_withInputs s ps p

theorem applyClears_withInputs : (s.withInputs ps).applyClears p = (s.applyClears p).withInputs ps := by
  unfold State.applyClears
  cases p.clrMem <;> cases p.clrRegs <;> cases p.clrStack <;> cases p.clrTimers <;> rfl

/-- The end of a cycle uses up the first record of whatever schedule there is. -/
theorem endCycle_withInputs : (s.withInputs ps).endCycle = s.endCycle.withInputs ps.tail := rfl

theorem afterStep_withInputs (drew : Bool) :
    (s.withInputs ps).afterStep p drew = (s.afterStep p drew).withInputs ps.tail := by
  rw [State.afterStep, tickTimers_withInputs, updateDirty_withInputs, endCycle_withInputs]
  rfl

/-! ### The cycle -/

theorem clockCycle_withInputs (hports : (s.withInputs ps).ports = s.ports) :
    clockCycle p (s.withInputs ps) = rescheduled ps.tail (clockCycle p s) := by
  cases hrst : p.rst with
  | true =>
    rw [clockCycle_of_rst _ _ hrst, clockCycle_of_rst _ _ hrst]
    rfl
  | false =>
    cases hclr : p.anyClear with
    | true =>
      rw [clockCycle_of_clear _ _ hrst hclr, clockCycle_of_clear _ _ hrst hclr, applyClears_withInputs,
        clearDirty_withInputs]
      rfl
    | false =>
      have hports' : ((s.loadPort p).withInputs ps).ports = (s.loadPort p).ports := by
        rw [← loadPort_withInputs, State.ports_loadPort, State.ports_loadPort, hports]
      obtain ⟨u, hu⟩ := exists_next_of_stepPhase p (s.loadPort p)
      rw [clockCycle_of_run _ _ hrst hclr, clockCycle_of_run _ _ hrst hclr, loadPort_withInputs,
        stepPhase_withInputs p hports', hu]
      exact congrArg Host.Outcome.next (afterStep_withInputs u ps p _)

end

/-- Settles O43: both schedules begin with the same record, and a cycle uses no other. -/
theorem portsOfOtherCyclesDoNotMatter : Obligations.PortsOfOtherCyclesDoNotMatter := by
  intro p rest rest' s t hinputs h
  have hports : (s.withInputs (p :: rest')).ports = s.ports := by simp [State.ports, State.withInputs, hinputs]
  calc step (s.withInputs (p :: rest'))
      = clockCycle s.ports (s.withInputs (p :: rest')) := by rw [step, hports]
    _ = rescheduled rest' (step s) := clockCycle_withInputs s (p :: rest') s.ports hports
    _ = .next (t.withInputs rest') := by rw [h]; rfl

end Sys2Proof.Machine
end

section
/-! PROOFS. Control flow (R130–R138): the jumps and the register skips, which write nothing but `pc`; Call and Return on
the stack, or the fault they latch; and that a sequence in which every Call is matched by its Return keeps the stack. -/

namespace Sys2Proof.Machine
variable {s t u : State}

/-! ### Jumps and skips -/

/-- An instruction that may write no part continues at the table's next pc, and changes nothing else (R116). -/
theorem exec_of_mayWrite_nil {i : Instr} (h : mayWrite i = []) (s : State) :
    ∃ t, exec i s = .next t ∧ SameBut [] s t ∧ ContinuesAt (tableNextPc s i) t := by
  cases execEnds i s with
  | continues target u hexec =>
    have hsame := instructionsWriteOnlyTheirParts i s _ hexec
    exact ⟨_, hexec, h ▸ hsame, pc_of_exec hexec (by simp), rfl⟩
  | waits x hi | underflows hi | overflows nnn hi => subst hi; cases h

/-- Settles O11: neither jump may write a part, and the table has their targets. -/
theorem jumpsSetPcAndNothingElse : Obligations.JumpsSetPcAndNothingElse := by
  intro nnn s
  obtain ⟨t, hexec, hsame, hpc⟩ := exec_of_mayWrite_nil (i := .jump nnn) rfl s
  obtain ⟨t', hexec', hsame', hpc'⟩ := exec_of_mayWrite_nil (i := .jumpV0 nnn) rfl s
  exact ⟨⟨decode_encode (.jump nnn), t, hexec, hpc, hsame⟩, ⟨decode_encode (.jumpV0 nnn), t', hexec', hpc', hsame'⟩⟩

/-- Families 5 and 9 have the one sub-opcode 0 (R88). -/
theorem decode_family5 (x y : RegIdx) (n : Height) :
    decode (0x5#4 ++ x ++ y ++ n) = if n = 0 then some (.skipEqualXY x y) else none := by
  simp only [decode, fieldOp_nibbles, fieldX_nibbles, fieldY_nibbles, fieldN_nibbles]

theorem decode_family9 (x y : RegIdx) (n : Height) :
    decode (0x9#4 ++ x ++ y ++ n) = if n = 0 then some (.skipNotEqualXY x y) else none := by
  simp only [decode, fieldOp_nibbles, fieldX_nibbles, fieldY_nibbles, fieldN_nibbles]

/-- The comparison of a skip, of bytes in the table and of their values in exact arithmetic. -/
theorem pcPlus_ite_toNat (s : State) (a b : Byte) (k k' : Nat) :
    pcPlus s (if a.toNat = b.toNat then k else k') = if a = b then pcPlus s k else pcPlus s k' := by
  simp only [BitVec.toNat_inj, apply_ite (pcPlus s)]

/-- Settles O15: no skip may write a part, and the table has their targets. -/
theorem registerSkipsCompareAndSkip : Obligations.RegisterSkipsCompareAndSkip := by
  intro x y nn s
  simp only [pcPlus_ite_toNat]
  refine ⟨⟨decode_encode (.skipEqual x nn), exec_of_mayWrite_nil rfl s⟩, ⟨decode_encode (.skipNotEqual x nn), ?_⟩,
    ⟨decode_family5 x y, exec_of_mayWrite_nil rfl s⟩, ⟨decode_family9 x y, ?_⟩⟩
  · simpa only [tableNextPc, ne_eq, ite_not] using exec_of_mayWrite_nil (i := .skipNotEqual x nn) rfl s
  · simpa only [tableNextPc, ne_eq, ite_not] using exec_of_mayWrite_nil (i := .skipNotEqualXY x y) rfl s

/-! ### Call and Return -/

/-- What a raised fault writes (R244). -/
theorem exists_next_of_raise (f : FaultKind) (w : Word) (s : State) :
    ∃ t, raise f w s = .next t ∧ LatchesFault f.code.toNat w.toNat s t ∧ SameBut [.latch] s t :=
  ⟨_, raise_eq s f w, ⟨rfl, rfl, rfl, rfl, rfl⟩, sameBut_setPc_setResult (sameBut_latchFault s f w) s.pc .faulted⟩

/-- The word 0x2NNN. -/
theorem toNat_encode_call (nnn : Addr12) : (encode (.call nnn)).toNat = 0x2000 + nnn.toNat := by
  rw [encode, BitVec.toNat_append, ← Nat.shiftLeft_add_eq_or_of_lt nnn.isLt]
  rfl

theorem readStack_push_self (s : State) (w : Word) : (s.push w).readStack s.sp = w := by
  rw [State.readStack_push, if_pos rfl]

/-- A push keeps the other slots (R28). -/
theorem readStack_push_of_ne (w : Word) {k : BitVec 5} (hsp : s.sp.toNat < 16) (hk : k.toNat < 16) (hne : k ≠ s.sp) :
    (s.push w).readStack k = s.readStack k := by
  rw [State.readStack_push, Nat.mod_eq_of_lt hsp, Nat.mod_eq_of_lt hk, if_neg (hne ∘ BitVec.eq_of_toNat_eq)]

theorem toNat_sp_push (w : Word) (hsp : s.sp.toNat < 16) : (s.push w).sp.toNat = s.sp.toNat + 1 := by
  rw [State.sp_push]
  bv_omega

/-- Settles O12: by `execCall_of_room` and `execCall_of_full`, with the slots a push writes and keeps. -/
theorem callPushesOrOverflows : Obligations.CallPushesOrOverflows := by
  refine fun nnn s => ⟨decode_encode (.call nnn), fun hsp => ?_, fun hsp => ?_⟩
  · have hroom : s.sp ≠ 16 := by bv_omega
    refine ⟨_, execCall_of_room nnn hroom, ⟨toNat_addrOperand nnn, rfl⟩, toNat_sp_push (s.pc + 2) hsp, ?_,
      fun k hk hne => readStack_push_of_ne _ hsp hk hne, sameBut_setPc_setResult (sameBut_push s _) _ _⟩
    exact (congrArg BitVec.toNat (readStack_push_self s _)).trans (toNat_pc_add s 2)
  · have hfull : s.sp = 16 := BitVec.eq_of_toNat_eq hsp
    rw [← toNat_encode_call nnn, exec, execCall_of_full nnn hfull]
    exact exists_next_of_raise .stackOverflow _ s

/-- Settles O13: by `execRet_of_nonempty` and `execRet_of_empty`; a pop writes no slot. -/
theorem returnPopsOrUnderflows : Obligations.ReturnPopsOrUnderflows := by
  refine fun s => ⟨decode_encode .ret, fun hpos hle => ?_, fun hsp => ?_⟩
  · have hnonempty : s.sp ≠ 0 := by bv_omega
    have htop : s.sp - 1 = BitVec.ofNat 5 (s.sp.toNat - 1) := by bv_omega
    refine ⟨_, execRet_of_nonempty hnonempty, ?_, ⟨by rw [← htop]; rfl, rfl⟩, fun _ => rfl,
      sameBut_setPc_setResult (sameBut_pop s) _ _⟩
    rw [State.sp_setResult, State.sp_setPc, State.sp_pop]
    bv_omega
  · rw [exec, execRet_of_empty (BitVec.eq_of_toNat_eq hsp)]
    exact exists_next_of_raise .stackUnderflow _ s

/-! ### Sequences of instructions -/

/-- A Call that does not fault had room, and pushed (R133). -/
theorem eq_of_exec_call {a : Addr12} (h : exec (.call a) s = .next u) (hres : u.result ≠ .faulted) :
    s.sp ≠ 16 ∧ u = ((s.push (s.pc + 2)).setPc (addrOperand a)).setResult .continued := by
  by_cases hsp : s.sp = 16
  · obtain rfl := Host.Outcome.next.inj ((execCall_of_full a hsp).symm.trans h)
    exact absurd rfl hres
  · exact ⟨hsp, Host.Outcome.next.inj (h.symm.trans (execCall_of_room a hsp))⟩

/-- A Return that does not fault popped (R130). -/
theorem eq_of_exec_ret (h : exec .ret s = .next u) (hres : u.result ≠ .faulted) :
    u = (s.pop.setPc (s.readStack (s.sp - 1))).setResult .continued := by
  by_cases hsp : s.sp = 0
  · obtain rfl := Host.Outcome.next.inj ((execRet_of_empty hsp).symm.trans h)
    exact absurd rfl hres
  · exact Host.Outcome.next.inj (h.symm.trans (execRet_of_nonempty hsp))

theorem execAll_cons_eq_some {i : Instr} {is : List Instr} :
    execAll (i :: is) s = some t ↔ ∃ u, exec i s = .next u ∧ u.result ≠ .faulted ∧ execAll is u = some t := by
  rw [execAll]
  cases exec i s with
  | next u => by_cases hres : u.result = .faulted <;> simp [hres]
  | fault r | refused r => simp

theorem execAll_singleton_eq_some {i : Instr} :
    execAll [i] s = some t ↔ exec i s = .next t ∧ t.result ≠ .faulted := by
  rw [execAll_cons_eq_some]
  constructor
  · rintro ⟨u, hexec, hres, hu⟩
    obtain rfl := Option.some.inj hu
    exact ⟨hexec, hres⟩
  · exact fun ⟨hexec, hres⟩ => ⟨t, hexec, hres, rfl⟩

theorem execAll_append_eq_some {l₁ l₂ : List Instr} :
    execAll (l₁ ++ l₂) s = some t ↔ ∃ u, execAll l₁ s = some u ∧ execAll l₂ u = some t := by
  induction l₁ generalizing s with
  | nil => simp [execAll]
  | cons i is ih =>
    simp only [List.cons_append, execAll_cons_eq_some, ih]
    constructor
    · rintro ⟨w, hexec, hres, u, hu, ht⟩
      exact ⟨u, ⟨w, hexec, hres, hu⟩, ht⟩
    · rintro ⟨u, ⟨w, hexec, hres, hu⟩, ht⟩
      exact ⟨w, hexec, hres, u, hu, ht⟩

/-! ### Matched Calls and Returns -/

/-- The entries held are as before: SP, and every slot below it. The slots above may be written. -/
def KeepsEntries (s t : State) : Prop :=
  t.sp = s.sp ∧ ∀ k : BitVec 5, k.toNat < s.sp.toNat → t.readStack k = s.readStack k

/-- The sequence keeps the entries held, when it does not fault. -/
def EntriesKept (l : List Instr) : Prop :=
  ∀ s t : State, s.sp.toNat ≤ 16 → execAll l s = some t → KeepsEntries s t

theorem entriesKept_nil : EntriesKept [] := by
  intro s t _ h
  obtain rfl := Option.some.inj h
  exact ⟨rfl, fun _ _ => rfl⟩

/-- Only Call and Return write the stack (R36). -/
theorem stack_not_mem_mayWrite {i : Instr} (notCall : ∀ a, i ≠ .call a) (notRet : i ≠ .ret) :
    .stack ∉ mayWrite i := by
  cases i
  case call a => exact absurd rfl (notCall a)
  case ret => exact absurd rfl notRet
  all_goals simp [mayWrite]

theorem entriesKept_singleton {i : Instr} (hi : .stack ∉ mayWrite i) : EntriesKept [i] := by
  intro s t _ h
  obtain ⟨hexec, -⟩ := execAll_singleton_eq_some.1 h
  obtain ⟨hsp, hslots⟩ := instructionsWriteOnlyTheirParts i s t hexec .stack hi
  exact ⟨hsp, fun k _ => hslots k⟩

theorem EntriesKept.append {l₁ l₂ : List Instr} (h₁ : EntriesKept l₁) (h₂ : EntriesKept l₂) :
    EntriesKept (l₁ ++ l₂) := by
  intro s t hle h
  obtain ⟨u, hu, ht⟩ := execAll_append_eq_some.1 h
  obtain ⟨hsp, hslots⟩ := h₁ s u hle hu
  obtain ⟨hsp', hslots'⟩ := h₂ u t (hsp ▸ hle) ht
  exact ⟨hsp'.trans hsp, fun k hk => (hslots' k (hsp ▸ hk)).trans (hslots k hk)⟩

/-- A Call, a sequence that keeps the entries held, and a Return: the pushed entry is the one popped, and the entries
below it are kept (R138). -/
theorem EntriesKept.call_ret {body : List Instr} (hbody : EntriesKept body) {a : Addr12} (hle : s.sp.toNat ≤ 16)
    (h : execAll (.call a :: (body ++ [.ret])) s = some t) : t.pc = s.pc + 2 ∧ KeepsEntries s t := by
  obtain ⟨u, hcall, hres, hrest⟩ := execAll_cons_eq_some.1 h
  obtain ⟨v, hv, hret⟩ := execAll_append_eq_some.1 hrest
  obtain ⟨hexec, hres'⟩ := execAll_singleton_eq_some.1 hret
  obtain ⟨hroom, rfl⟩ := eq_of_exec_call hcall hres
  obtain rfl := eq_of_exec_ret hexec hres'
  have hlt : s.sp.toNat < 16 := by bv_omega
  have hdepth := toNat_sp_push (s.pc + 2) hlt
  obtain ⟨hsp, hslots⟩ := hbody _ v (by rw [State.sp_setResult, State.sp_setPc, hdepth]; exact hlt) hv
  have htop : v.sp - 1 = s.sp := by rw [hsp]; exact BitVec.add_sub_cancel s.sp 1
  have hkept : ∀ k : BitVec 5, k.toNat < s.sp.toNat + 1 → v.readStack k = (s.push (s.pc + 2)).readStack k :=
    fun k hk => hslots k (hdepth ▸ hk)
  refine ⟨?_, htop, fun k hk => ?_⟩
  · calc v.readStack (v.sp - 1)
        = (s.push (s.pc + 2)).readStack s.sp := by rw [htop, hkept s.sp (Nat.lt_succ_self _)]
      _ = s.pc + 2 := readStack_push_self s _
  · calc v.readStack k
        = (s.push (s.pc + 2)).readStack k := hkept k (Nat.lt_succ_of_lt hk)
      _ = s.readStack k := readStack_push_of_ne _ hlt (hk.trans hlt) fun e => (e ▸ hk).ne rfl

/-- Every balanced sequence keeps the entries held. -/
theorem Balanced.entriesKept {l : List Instr} (h : Balanced l) : EntriesKept l := by
  induction h with
  | nil => exact entriesKept_nil
  | plain i notCall notRet => exact entriesKept_singleton (stack_not_mem_mayWrite notCall notRet)
  | wrap a body _ ih => exact fun s t hle h => (ih.call_ret hle h).2
  | append l₁ l₂ _ _ ih₁ ih₂ => exact ih₁.append ih₂

/-- Calls within the depth all succeed, each one entry more (R28, R133). -/
theorem execAll_calls (targets : List Addr12) (s : State) (h : s.sp.toNat + targets.length ≤ 16) :
    ∃ t, execAll (targets.map .call) s = some t ∧ t.sp.toNat = s.sp.toNat + targets.length := by
  induction targets generalizing s with
  | nil => exact ⟨s, rfl, rfl⟩
  | cons a as ih =>
    rw [List.length_cons] at h ⊢
    obtain ⟨u, hexec, ⟨-, hres⟩, hsp, -⟩ := (callPushesOrOverflows a s).2.1 (by omega)
    obtain ⟨t, ht, hdepth⟩ := ih u (by omega)
    exact ⟨t, execAll_cons_eq_some.2 ⟨u, hexec, by simp [hres], ht⟩, by omega⟩

/-- Settles O14: a balanced body keeps the entry that the Call pushed, by induction on the body; the depth by
`execAll_calls`; and the two stack faults as in O12 and O13. -/
theorem callsAndReturnsMatch : Obligations.CallsAndReturnsMatch := by
  refine ⟨fun a body s t hbody hle h => ?_, fun targets s hsp hlen => ?_, fun s hsp => ?_⟩
  · obtain ⟨hpc, hkept, -⟩ := hbody.entriesKept.call_ret hle h
    exact ⟨hpc ▸ toNat_pc_add s 2, hkept⟩
  · obtain ⟨t, ht, hdepth⟩ := execAll_calls targets s (by simp [hsp, hlen])
    have hfull : t.sp.toNat = 16 := by rw [hdepth, hsp, hlen]; rfl
    refine ⟨t, ht, BitVec.eq_of_toNat_eq hfull, fun a => ?_⟩
    obtain ⟨u, hexec, hfault, -⟩ := (callPushesOrOverflows a t).2.2 hfull
    exact ⟨u, hexec, hfault⟩
  · obtain ⟨u, hexec, hfault, -⟩ := (returnPopsOrUnderflows s).2.2 (by rw [hsp]; rfl)
    exact ⟨u, hexec, hfault⟩

end Sys2Proof.Machine
end

section
/-! PROOFS. The register-file ALU (R150–R162): every one of its instructions makes one write, of a register or of a
register and then VF (R118), and advances. The write says what it leaves in the registers; the lists of R24 and R116's
table say the rest. -/

namespace Sys2Proof.Machine
variable {i : Instr} {s u : State} {x : RegIdx} {b : Byte}

/-! ### An instruction that writes and advances -/

/-- An instruction that advances leaves the registers of its update, and writes within its own lists (R24). -/
theorem exists_next_of_advance (hexec : exec i s = advance u) :
    ∃ t, exec i s = .next t ∧ (∀ r, t.readV r = u.readV r) ∧ SameRegsBut (WritesReg · i) s t ∧
      SameBut (mayWrite i) s t ∧ ContinuesAt (tableNextPc s i) t :=
  ⟨_, hexec, fun _ => rfl, (onlyFlagWritersAndNamedRegistersWriteVF i s _ hexec).1,
    instructionsWriteOnlyTheirParts i s _ hexec, pc_of_exec hexec (by simp), rfl⟩

/-- One register written: what holds of the byte holds of V[x]. -/
theorem exists_next_of_writeV (P : Byte → Prop) (hexec : exec i s = advance (s.writeV x b)) (hb : P b) :
    ∃ t, exec i s = .next t ∧ P (t.readV x) ∧ SameRegsBut (WritesReg · i) s t ∧
      SameBut (mayWrite i) s t ∧ ContinuesAt (tableNextPc s i) t := by
  obtain ⟨t, hnext, hread, hframe⟩ := exists_next_of_advance hexec
  have hx : t.readV x = b := (hread x).trans (s.readV_writeV_self x b)
  exact ⟨t, hnext, hx ▸ hb, hframe⟩

/-- Result first, flag second: V[x] is the result unless it is VF, and VF is the flag (R118). -/
theorem exists_next_of_writeFlagged {flag : Bool} {result flagValue : Nat}
    (hexec : exec i s = advance (s.writeFlagged x b flag)) (hresult : b.toNat = result)
    (hflag : (flagByte flag).toNat = flagValue) :
    ∃ t, exec i s = .next t ∧ (x ≠ 0xF → (t.readV x).toNat = result) ∧ (t.readV 0xF).toNat = flagValue ∧
      SameRegsBut (WritesReg · i) s t ∧ SameBut (mayWrite i) s t ∧ ContinuesAt (tableNextPc s i) t := by
  obtain ⟨t, hnext, hread, hframe⟩ := exists_next_of_advance hexec
  have hregs : ∀ r, t.readV r = if r = 0xF then flagByte flag else if r = x then b else s.readV r :=
    fun r => (hread r).trans (s.readV_writeFlagged x r b flag)
  refine ⟨t, hnext, fun hx => ?_, ?_, hframe⟩
  · rwa [hregs, if_neg hx, if_pos rfl]
  · rwa [hregs, if_pos rfl]

/-! ### One register written -/

/-- Settles O16: each writes one byte, the sum of Add modulo 256. -/
theorem loadAddAndMoveWriteOneRegister : Obligations.LoadAddAndMoveWriteOneRegister := fun x y nn _ =>
  ⟨⟨decode_encode (.load x nn), exists_next_of_writeV (·.toNat = _) rfl rfl⟩,
    ⟨decode_encode (.add x nn), exists_next_of_writeV (·.toNat = _) rfl (BitVec.toNat_add _ _)⟩,
    ⟨decode_encode (.move x y), exists_next_of_writeV (·.toNat = _) rfl rfl⟩⟩

/-- Settles O17: each writes one byte, with VF as any other register. -/
theorem bitwiseInstructionsWorkBitByBit : Obligations.BitwiseInstructionsWorkBitByBit := fun x y s =>
  ⟨⟨decode_encode (.or x y),
      exists_next_of_writeV (fun b => ∀ k, b.getLsbD k = ((s.readV x).getLsbD k || (s.readV y).getLsbD k)) rfl
        fun _ => BitVec.getLsbD_or⟩,
    ⟨decode_encode (.and x y),
      exists_next_of_writeV (fun b => ∀ k, b.getLsbD k = ((s.readV x).getLsbD k && (s.readV y).getLsbD k)) rfl
        fun _ => BitVec.getLsbD_and⟩,
    ⟨decode_encode (.xor x y),
      exists_next_of_writeV (fun b => ∀ k, b.getLsbD k = Bool.xor ((s.readV x).getLsbD k) ((s.readV y).getLsbD k)) rfl
        fun _ => BitVec.getLsbD_xor⟩⟩

/-- Settles O21: the byte written is the port's, whatever it is, masked by nn. -/
theorem randomMasksThePortsByte : Obligations.RandomMasksThePortsByte := fun x nn s =>
  ⟨decode_encode (.random x nn),
    exists_next_of_writeV (fun b => ∀ k, b.getLsbD k = (s.ports.rnd.getLsbD k && nn.getLsbD k)) rfl
      fun _ => BitVec.getLsbD_and⟩

/-! ### The flags as numbers -/

theorem toNat_flagByte_decide (p : Prop) [Decidable p] : (flagByte (decide p)).toNat = if p then 1 else 0 := by
  by_cases h : p <;> simp [flagByte, h]

/-- A bit shifted out, in exact arithmetic. -/
theorem toNat_flagByte_getLsbD (a : Byte) (k : Nat) : (flagByte (a.getLsbD k)).toNat = a.toNat / 2 ^ k % 2 := by
  rw [BitVec.getLsbD, Nat.testBit_eq_decide_div_mod_eq, toNat_flagByte_decide]
  split <;> omega

theorem toNat_flagByte_shiftedOutRight (a : Byte) : (flagByte (shiftedOutRight a)).toNat = a.toNat % 2 := by
  rw [shiftedOutRight, toNat_flagByte_getLsbD, pow_zero, Nat.div_one]

theorem toNat_flagByte_shiftedOutLeft (a : Byte) : (flagByte (shiftedOutLeft a)).toNat = a.toNat / 128 := by
  rw [shiftedOutLeft, toNat_flagByte_getLsbD]
  omega

/-! ### A register and VF written -/

/-- Settles O18: the result is the 8-bit sum, and the flag compares the exact sum. -/
theorem addXYGivesSumAndCarry : Obligations.AddXYGivesSumAndCarry := fun x y _ =>
  ⟨decode_encode (.addXY x y),
    exists_next_of_writeFlagged rfl (BitVec.toNat_add _ _) (toNat_flagByte_decide _)⟩

/-- The 8-bit difference, in exact arithmetic. -/
theorem toNat_sub_byte (a b : Byte) : (a - b).toNat = (a.toNat + 256 - b.toNat) % 256 := by
  rw [BitVec.toNat_sub]
  omega

/-- Settles O19: the results are the 8-bit differences, and each flag compares its operands. -/
theorem subtractionsGiveDifferenceAndNotBorrow : Obligations.SubtractionsGiveDifferenceAndNotBorrow := fun x y _ =>
  ⟨⟨decode_encode (.subXY x y),
      exists_next_of_writeFlagged rfl (toNat_sub_byte _ _) (toNat_flagByte_decide _)⟩,
    ⟨decode_encode (.subYX x y),
      exists_next_of_writeFlagged rfl (toNat_sub_byte _ _) (toNat_flagByte_decide _)⟩⟩

theorem toNat_shiftRight_one (a : Byte) : (a >>> 1).toNat = a.toNat / 2 := by
  rw [BitVec.toNat_ushiftRight, Nat.shiftRight_one]

theorem toNat_shiftLeft_one (a : Byte) : (a <<< 1).toNat = a.toNat * 2 % 256 := by
  rw [BitVec.toNat_shiftLeft, Nat.shiftLeft_eq]

/-- Settles O20: the flag is taken from the value before the shift, and the word decodes whatever its y nibble holds. -/
theorem shiftsGiveResultAndBitShiftedOut : Obligations.ShiftsGiveResultAndBitShiftedOut := fun x _ =>
  ⟨⟨decode_shiftRight x,
      exists_next_of_writeFlagged rfl (toNat_shiftRight_one _) (toNat_flagByte_shiftedOutRight _)⟩,
    ⟨decode_shiftLeft x,
      exists_next_of_writeFlagged rfl (toNat_shiftLeft_one _) (toNat_flagByte_shiftedOutLeft _)⟩⟩

end Sys2Proof.Machine
end

section
/-! PROOFS. The index register and memory (R180–R186): each of these instructions makes one update, of `I`, of a block
of memory from `I` on, or of a block of registers, and advances. What the update leaves is said here; the lists of R24,
R27 and R61 and R116's table say the rest. -/

namespace Sys2Proof.Machine
variable {i : Instr} {s : State}

/-! ### The index register -/

/-- `I` written: the table and the instruction's own parts say the rest (R27). -/
theorem exists_next_of_setI {w : Word} {value : Nat} (hexec : exec i s = advance (s.setI w)) (hw : w.toNat = value) :
    ∃ t, exec i s = .next t ∧ t.I.toNat = value ∧ SameBut (mayWrite i) s t ∧ ContinuesAt (tableNextPc s i) t :=
  ⟨_, hexec, hw, instructionsWriteOnlyTheirParts i s _ hexec, pc_of_exec hexec (by simp), rfl⟩

/-- `u16(w + zext_16(b))`, in exact arithmetic. -/
theorem toNat_add_zext16 (w : Word) (b : Byte) : (w + zext16 b).toNat = (w.toNat + b.toNat) % 65536 := by
  rw [BitVec.toNat_add, toNat_zext16]

/-- Five times a byte fits in 16 bits, so no glyph address wraps. -/
theorem toNat_zext16_mul_five (b : Byte) : (zext16 b * 5).toNat = b.toNat * 5 := by
  have hfits : b.toNat * 5 < 65536 := by omega
  rw [BitVec.toNat_mul, toNat_zext16]
  exact Nat.mod_eq_of_lt hfits

/-- Settles O22: each writes `I`; only the sum of AddI can wrap. -/
theorem indexInstructionsWriteI : Obligations.IndexInstructionsWriteI := fun x nnn _ =>
  ⟨⟨decode_encode (.loadI nnn), exists_next_of_setI rfl (toNat_addrOperand nnn)⟩,
    ⟨decode_encode (.addI x), exists_next_of_setI rfl (toNat_add_zext16 _ _)⟩,
    ⟨decode_encode (.loadFont x), exists_next_of_setI rfl (toNat_zext16_mul_five _)⟩⟩

/-! ### Blocks of memory -/

/-- A block stored from `I` on: memory reads as the update leaves it, and every byte outside the block as before (R61,
R62, R186). -/
theorem exists_next_of_memWriteBytes {bs : List Byte} (hwf : s.memWf = true)
    (hexec : exec i s = advance (s.memWriteBytes (s.dataAddr 0) bs)) :
    ∃ t, exec i s = .next t ∧ (∀ a, t.byteAt a = (s.memWriteBytes (s.dataAddr 0) bs).byteAt a) ∧
      (∀ a, (∀ k, k < bs.length → a ≠ a12 (s.dataAddr k)) → t.byteAt a = s.byteAt a) ∧
      SameBut (mayWrite i) s t ∧ ContinuesAt (tableNextPc s i) t :=
  ⟨_, hexec, fun _ => rfl, fun _ ha => s.byteAt_memWriteBytes_other (a := s.dataAddr 0) hwf ha,
    instructionsWriteOnlyTheirParts i s _ hexec, pc_of_exec hexec (by simp), rfl⟩

/-- The block of a StoreBCD: digit j at `a12(I + j)` (R183). -/
theorem byteAt_memWriteBytes_bcdDigits (b : Byte) {j : Nat} (hwf : s.memWf = true) (hj : j < 3) :
    (s.memWriteBytes (s.dataAddr 0) (bcdDigits b)).byteAt (a12 (s.dataAddr j)) = (bcdDigits b)[j]'hj :=
  s.byteAt_memWriteBytes (a := s.dataAddr 0) (bs := bcdDigits b) hwf (show 3 ≤ Config.memSize by decide) hj

/-- Settles O23: the block is the three digits, whose 8-bit divisions are those of the value. -/
theorem storeBCDStoresThreeDigits : Obligations.StoreBCDStoresThreeDigits := by
  refine fun x s => ⟨decode_encode (.storeBCD x), fun hwf => ?_⟩
  obtain ⟨t, hnext, hread, hframe⟩ := exists_next_of_memWriteBytes (i := .storeBCD x) hwf rfl
  have hdigit (j : Nat) (hj : j < 3) : t.byteAt (a12 (s.dataAddr j)) = (bcdDigits (s.readV x))[j]'hj :=
    (hread _).trans (byteAt_memWriteBytes_bcdDigits _ hwf hj)
  exact ⟨t, hnext, congrArg BitVec.toNat (hdigit 0 (by decide)), congrArg BitVec.toNat (hdigit 1 (by decide)),
    congrArg BitVec.toNat (hdigit 2 (by decide)), hframe⟩

/-- Settles O24: the block is V[0..x], of length `x + 1`. -/
theorem storeRegistersStoresABlock : Obligations.StoreRegistersStoresABlock := by
  refine fun x s => ⟨decode_encode (.storeRegisters x), fun hwf => ?_⟩
  obtain ⟨t, hnext, hread, hother, hframe⟩ := exists_next_of_memWriteBytes hwf (exec_storeRegisters s x)
  have hlen := s.regBytes_length x
  exact ⟨t, hnext, fun r hr => (hread _).trans (byteAt_memWriteBytes_regBytes s hwf hr),
    fun a ha => hother a fun k hk => ha k (by omega), hframe⟩

/-! ### A block of registers -/

/-- The block of a LoadMemory: V[r] from `a12(I + r)` for every r up to x (R185). -/
theorem readV_loadRegs_regCount {x r : RegIdx} (s : State) (hr : r.toNat ≤ x.toNat) :
    (s.loadRegs (s.dataAddr 0) (regCount x)).readV r = s.byteAt (a12 (s.dataAddr r.toNat)) := by
  have hcount : r.toNat < regCount x := Nat.lt_succ_of_le hr
  rw [s.readV_loadRegs _ (regCount x) x.isLt, if_pos hcount]
  rfl

/-- Settles O25: the loop loads V[0..x], the list of R24 keeps the registers above, and `I` is written as it was. -/
theorem loadMemoryLoadsABlock : Obligations.LoadMemoryLoadsABlock := by
  refine fun x s => ⟨decode_encode (.loadMemory x), ?_⟩
  obtain ⟨t, hnext, hread, hframe⟩ := exists_next_of_advance (i := .loadMemory x) (s := s) rfl
  exact ⟨t, hnext, fun r hr => (hread r).trans (readV_loadRegs_regCount s hr), hframe⟩

end Sys2Proof.Machine
end

section
/-! PROOFS. The framebuffer (R200–R208). ClearDisplay and Draw make one write of the frame and advance: the laws of
Draw's loops, read in the exact arithmetic of `SpriteCovers`, say what a Draw leaves. No other instruction writes the
frame or DIRTY, so in a cycle only a step that executes one of the two, or full reset, changes a pixel. -/

namespace Sys2Proof.Machine
variable {x y : RegIdx} {n : Height} {s t : State} {r : Fin 32} {c : Fin 64}

/-! ### What a Draw computes -/

/-- A sprite bit, in exact arithmetic. -/
theorem spriteBit_iff (sprite : Byte) (col : Nat) :
    spriteBit sprite col = true ↔ sprite.toNat / 2 ^ (7 - col) % 2 = 1 := by
  rw [spriteBit, BitVec.getLsbD, Nat.testBit_eq_decide_div_mod_eq, decide_eq_true_iff]

/-- The pixels that Draw's loops toggle are those of R202. -/
theorem spriteHits_iff_spriteCovers :
    SpriteHits s.byteAt (s.dataAddr 0) (s.readV x) (s.readV y) n.toNat r c ↔ SpriteCovers s x y n r c := by
  simp only [SpriteHits, SpriteCovers, spriteBit_iff, Fin.ext_iff]
  rfl

theorem pixel_drawn_of_covers (h : SpriteCovers s x y n r c) : (s.drawn x y n).1.pixel r c = !s.fb.pixel r c :=
  (drawRows_pixel _ _ _ _ (by omega) _ r c).1 (spriteHits_iff_spriteCovers.2 h)

theorem pixel_drawn_of_not_covers (h : ¬ SpriteCovers s x y n r c) : (s.drawn x y n).1.pixel r c = s.fb.pixel r c :=
  (drawRows_pixel _ _ _ _ (by omega) _ r c).2 (mt spriteHits_iff_spriteCovers.1 h)

theorem drawn_collides_iff :
    (s.drawn x y n).2 = true ↔ ∃ r c, SpriteCovers s x y n r c ∧ s.fb.pixel r c = true := by
  rw [State.drawn, drawRows_collide _ _ _ _ (by omega)]
  simp [spriteHits_iff_spriteCovers]

/-! ### The two display instructions -/

theorem toNat_flagByte_eq_one_iff (f : Bool) : (flagByte f).toNat = 1 ↔ f = true := by cases f <;> decide

theorem frame_of_exec_draw (h : exec (.draw x y n) s = .next t) : t.fb = (s.drawn x y n).1 ∧ t.dirty = true := by
  obtain rfl := Host.Outcome.next.inj h
  exact ⟨rfl, rfl⟩

/-- VF takes the collision last (R118), and as a flag. -/
theorem vf_of_exec_draw (h : exec (.draw x y n) s = .next t) :
    ((t.readV 0xF).toNat = 1 ↔ ∃ r c, SpriteCovers s x y n r c ∧ s.fb.pixel r c = true) ∧ (t.readV 0xF).toNat ≤ 1 := by
  have hvf : t.readV 0xF = flagByte (s.drawn x y n).2 := by
    obtain rfl := Host.Outcome.next.inj h
    exact State.readV_writeV_self _ _ _
  rw [hvf, toNat_flagByte_eq_one_iff, drawn_collides_iff]
  exact ⟨Iff.rfl, flagByte_toNat_le_one _⟩

/-- Settles O27: the frame written is the blank one. -/
theorem clearDisplayBlanksTheFrame : Obligations.ClearDisplayBlanksTheFrame := fun s =>
  have hexec : exec .clearDisplay s = advance (s.setFrame Framebuffer.blank) := rfl
  ⟨decode_encode .clearDisplay, _, hexec, Framebuffer.pixel_blank, rfl, instructionsWriteOnlyTheirParts _ s _ hexec,
    pc_of_exec hexec (by simp), rfl⟩

/-- Settles O28: the loops invert each covered pixel once, and the collision says that one of them was on. -/
theorem drawInvertsCoveredPixelsAndReportsCollision : Obligations.DrawInvertsCoveredPixelsAndReportsCollision := by
  refine fun x y n s => ⟨decode_encode (.draw x y n), ?_⟩
  obtain ⟨t, hnext, -, hregs, hframe⟩ := exists_next_of_advance (i := .draw x y n) (s := s) rfl
  obtain ⟨hfb, hdirty⟩ := frame_of_exec_draw hnext
  obtain ⟨hvf, hflag⟩ := vf_of_exec_draw hnext
  refine ⟨t, hnext, fun r c => ?_, hvf.2, fun hoff => ?_, hdirty, hregs, hframe⟩
  · rw [hfb]
    exact ⟨pixel_drawn_of_covers, pixel_drawn_of_not_covers⟩
  · have hnone : (t.readV 0xF).toNat ≠ 1 := fun hone => by
      obtain ⟨r, c, hcov, hon⟩ := hvf.1 hone
      exact Bool.false_ne_true ((hoff r c hcov).symm.trans hon)
    omega

/-! ### Two Draws of one sprite -/

/-- What a sprite covers depends on memory, `I` and the two position registers only. -/
theorem spriteCovers_congr (hmem : ∀ a, t.byteAt a = s.byteAt a) (hI : t.I = s.I) (hx : t.readV x = s.readV x)
    (hy : t.readV y = s.readV y) : SpriteCovers t x y n r c ↔ SpriteCovers s x y n r c := by
  simp only [SpriteCovers, hmem, hI, hx, hy]

/-- Settles O29: the second Draw covers the same pixels, each now the inverse of what it was. -/
theorem drawingTwiceRestoresTheFrame : Obligations.DrawingTwiceRestoresTheFrame := by
  intro x y n s t u hst hx hy htu
  obtain ⟨hfbt, -⟩ := frame_of_exec_draw hst
  obtain ⟨hfbu, -⟩ := frame_of_exec_draw htu
  obtain ⟨hvf, hflag⟩ := vf_of_exec_draw htu
  have hkept := instructionsWriteOnlyTheirParts _ s t hst
  have hcov : ∀ r c, SpriteCovers t x y n r c ↔ SpriteCovers s x y n r c := fun r c =>
    spriteCovers_congr (hkept .mem (by simp [mayWrite])) (hkept .index (by simp [mayWrite])) hx hy
  refine ⟨Framebuffer.ext fun r c => ?_, hvf.trans ?_, hflag⟩
  · by_cases h : SpriteCovers s x y n r c
    · rw [hfbu, pixel_drawn_of_covers ((hcov r c).2 h), hfbt, pixel_drawn_of_covers h, Bool.not_not]
    · rw [hfbu, pixel_drawn_of_not_covers (mt (hcov r c).1 h), hfbt, pixel_drawn_of_not_covers h]
  · refine exists₂_congr fun r c => (and_congr_left' (hcov r c)).trans (and_congr_right fun h => ?_)
    rw [hfbt, pixel_drawn_of_covers h, Bool.not_eq_true']

/-! ### The frame in a cycle -/

/-- The instruction that a cycle without reset and clear runs is the one it executes. -/
theorem executes_afterLoad_iff {i : Instr} (h : s.ports.NoReset) :
    s.afterLoad.executes s.ports = some i ↔ s.Executes i := by
  rw [State.executes_eq_some, State.faultCode_loadPort, State.Executes, Ports.Steps, and_iff_right h]

/-- The cycle marks the frame dirty exactly when it executes ClearDisplay or Draw (R32). -/
theorem any_marksFrame_iff (h : s.ports.NoReset) :
    (s.afterLoad.executes s.ports).any marksFrame = true ↔ s.ExecutesDisplay := by
  simp only [Option.any_eq_true, executes_afterLoad_iff h, marksFrame_iff, State.ExecutesDisplay]
  constructor
  · rintro ⟨i, hi, rfl | ⟨x, y, n, rfl⟩⟩
    · exact .inl hi
    · exact .inr ⟨x, y, n, hi⟩
  · rintro (hi | ⟨x, y, n, hi⟩)
    · exact ⟨_, hi, .inl rfl⟩
    · exact ⟨_, hi, .inr ⟨x, y, n, rfl⟩⟩

/-- The frame and DIRTY are in the lists of ClearDisplay and Draw only. -/
theorem frame_not_mem_mayWrite {i : Instr} (h : ¬ marksFrame i = true) :
    .pixels ∉ mayWrite i ∧ .dirty ∉ mayWrite i := by
  cases i
  case clearDisplay | draw => exact absurd rfl h
  all_goals simp [mayWrite]

/-- A step that executes neither ClearDisplay nor Draw keeps the frame and DIRTY. -/
theorem StepPhase.frame {p : Ports} (h : StepPhase p s t) (hdrew : ¬ (s.executes p).any marksFrame = true) :
    (∀ r c, t.fb.pixel r c = s.fb.pixel r c) ∧ t.dirty = s.dirty := by
  cases h with
  | idle _ ht => subst ht; exact ⟨fun _ _ => rfl, rfl⟩
  | unmatched _ _ _ ht => subst ht; exact ⟨fun _ _ => rfl, rfl⟩
  | executes i hi hexec =>
    rw [hi] at hdrew
    obtain ⟨hpixels, hdirty⟩ := frame_not_mem_mayWrite hdrew
    have hkept := instructionsWriteOnlyTheirParts i s t hexec
    exact ⟨hkept .pixels hpixels, hkept .dirty hdirty⟩

/-- Settles O30: a cycle with a clear keeps the frame, and a step that is neither ClearDisplay nor Draw does too. -/
theorem onlyClearDrawAndResetChangePixels : Obligations.OnlyClearDrawAndResetChangePixels := by
  intro s t r c h hne
  cases step_cases h with
  | reset hrst _ => exact .inl hrst
  | clears _ _ ht => exact absurd (by simp [ht]) hne
  | runs hnone u hphase ht =>
    refine .inr ((any_marksFrame_iff hnone).1 (not_not.1 fun hdrew => hne ?_))
    rw [ht, State.fb_afterStep, (hphase.frame hdrew).1, State.fb_loadPort]

/-- Settles O31: the DIRTY update comes after the step, and a step that does not draw keeps DIRTY. -/
theorem dirtyIsSetByDrawingBeforeItIsCleared : Obligations.DirtyIsSetByDrawingBeforeItIsCleared := by
  intro s t hnone h
  cases step_cases h with
  | reset hrst _ => exact absurd (hrst.symm.trans hnone.1) Bool.noConfusion
  | clears _ hclr _ => exact absurd (hclr.symm.trans hnone.2) Bool.noConfusion
  | runs _ u hphase ht =>
    have hdirty := (congrArg State.dirty ht).trans (State.dirty_afterStep ..)
    rw [← any_marksFrame_iff hnone, hdirty]
    refine ⟨fun hdrew => if_pos hdrew, fun hdrew hclr => ?_, fun hdrew hclr => ?_⟩
    · rw [if_neg hdrew, if_pos hclr]
    · rw [if_neg hdrew, if_neg (Bool.eq_false_iff.1 hclr), (hphase.frame hdrew).2, State.dirty_loadPort]

end Sys2Proof.Machine
end

section
/-! PROOFS. Keys and timers (R220–R225): the key skips, which write nothing but `pc`; the three timer instructions; and
WaitKeyPress, which stores the key's code when one is pressed and waits otherwise. -/

namespace Sys2Proof.Machine

/-! ### The key skips -/

/-- Settles O32: neither skip may write a part, and R116's table has their targets. -/
theorem keySkipsGoOppositeWays : Obligations.KeySkipsGoOppositeWays := by
  intro x s
  simp only [apply_ite (pcPlus s)]
  exact ⟨⟨decode_encode (.skipKeyPressed x), exec_of_mayWrite_nil rfl s⟩,
    ⟨decode_encode (.skipKeyNotPressed x), exec_of_mayWrite_nil rfl s⟩⟩

/-! ### The timers -/

/-- An instruction that advances leaves the timers of its update, and writes within its own list (R30). -/
theorem exists_next_with_timers_of_advance {i : Instr} {s u : State} (hexec : exec i s = advance u) :
    ∃ t, exec i s = .next t ∧ t.dt = u.dt ∧ t.st = u.st ∧ SameBut (mayWrite i) s t ∧
      ContinuesAt (tableNextPc s i) t :=
  ⟨_, hexec, rfl, rfl, instructionsWriteOnlyTheirParts i s _ hexec, pc_of_exec hexec (by simp), rfl⟩

/-- Settles O33: LoadDelay writes the byte of DT to one register, and each of the other two writes one timer. -/
theorem timerInstructionsMoveTheTimers : Obligations.TimerInstructionsMoveTheTimers := by
  intro x s
  obtain ⟨t, hnext, hdt, -, hframe⟩ :=
    exists_next_with_timers_of_advance (i := .setDelay x) (s := s) (u := s.setDt (s.readV x)) rfl
  obtain ⟨t', hnext', -, hst, hframe'⟩ :=
    exists_next_with_timers_of_advance (i := .setSound x) (s := s) (u := s.setSt (s.readV x)) rfl
  exact ⟨⟨decode_encode (.loadDelay x), exists_next_of_writeV (· = s.dt) rfl rfl⟩,
    ⟨decode_encode (.setDelay x), t, hnext, hdt, hframe⟩,
    ⟨decode_encode (.setSound x), t', hnext', hst, hframe'⟩⟩

/-! ### WaitKeyPress -/

/-- A key's code fits in a byte. -/
theorem toNat_keyCode_setWidth (p : Ports) : (p.keyCode.setWidth 8).toNat = p.keyCode.toNat :=
  BitVec.toNat_setWidth_of_le (by decide)

theorem tableNextPc_waitKeyPress_of_key {s : State} (x : RegIdx) (hkey : s.ports.keyValid = true) :
    tableNextPc s (.waitKeyPress x) = pcPlus s 2 := if_pos hkey

/-- Settles O34: with a key the instruction writes its code to V[x] and advances; with none it waits, which writes
only `result`. -/
theorem waitKeyPressStoresTheKeyOrWaits : Obligations.WaitKeyPressStoresTheKeyOrWaits := by
  refine fun x s => ⟨decode_encode (.waitKeyPress x), fun hkey => ?_, fun hkey => ?_⟩
  · rw [← tableNextPc_waitKeyPress_of_key x hkey]
    exact exists_next_of_writeV (·.toNat = s.ports.keyCode.toNat) (execWaitKeyPress_of_key x hkey)
      (toNat_keyCode_setWidth _)
  · exact ⟨_, execWaitKeyPress_of_no_key x hkey, sameBut_setResult [] s .waiting, rfl, rfl⟩

end Sys2Proof.Machine
end

section
/-! PROOFS. The hardware's faults (R240–R249): a step faults for one of three causes, and then writes only the fault
latch and `result`; a faulted block executes nothing until full reset. -/

namespace Sys2Proof.Machine
variable {s t : State}

/-! ### The causes of a fault -/

/-- The cause of each fault in a step at `s` (R240–R243): decode failure, Return on an empty stack, Call at depth 16, and
none for InvalidRegister. -/
def FaultCause (s : State) : FaultKind → Prop
  | .invalidInstruction => decode s.fetchWord = none
  | .stackUnderflow => decode s.fetchWord = some .ret ∧ s.sp = 0
  | .stackOverflow => (∃ a, decode s.fetchWord = some (.call a)) ∧ s.sp = 16
  | .invalidRegister => False

/-- The word that a stack fault latches, the instruction's encoding, is the fetched word: only a shift has bits that the
decoder ignores (R93). -/
theorem encode_eq_fetchWord {i : Instr} (hd : decode s.fetchWord = some i) (hstack : .stack ∈ mayWrite i) :
    encode i = s.fetchWord := by
  refine (onlyTheShiftsIgnoreTheirYField.2 s.fetchWord i hd).2 fun x => ⟨?_, ?_⟩ <;> rintro rfl <;>
    simp [mayWrite] at hstack

/-- A step with a cause raises its fault, with the fetched word (R244). -/
theorem runStep_of_faultCause {f : FaultKind} (hrun : s.faultCode = 0) (hcause : FaultCause s f) :
    runStep s = raise f s.fetchWord s := by
  cases f with
  | invalidInstruction => exact runStep_of_none s hrun hcause
  | stackUnderflow =>
    obtain ⟨hd, hsp⟩ := hcause
    rw [runStep_of_decode s hrun hd, ← encode_eq_fetchWord hd (by simp [mayWrite])]
    exact execRet_of_empty hsp
  | stackOverflow =>
    obtain ⟨⟨a, hd⟩, hsp⟩ := hcause
    rw [runStep_of_decode s hrun hd, ← encode_eq_fetchWord hd (by simp [mayWrite])]
    exact execCall_of_full a hsp
  | invalidRegister => exact hcause.elim

theorem faultCode_of_faultCause {f : FaultKind} (hrun : s.faultCode = 0) (hcause : FaultCause s f)
    (h : runStep s = .next t) : t.faultCode = f.code := by
  obtain rfl := Host.Outcome.next.inj ((runStep_of_faultCause hrun hcause).symm.trans h)
  rfl

/-- An instruction whose `result` is not FAULT leaves FAULT_CODE. -/
theorem faultCode_of_exec_not_faulted {i : Instr} (h : exec i s = .next t) (hres : t.result ≠ .faulted) :
    t.faultCode = s.faultCode := by
  cases i
  case ret => rw [eq_of_exec_ret h hres]; rfl
  case call a => rw [(eq_of_exec_call h hres).2]; rfl
  all_goals exact (instructionsWriteOnlyTheirParts _ s t h .latch (by simp [mayWrite])).1

/-- A step that faults, in `result` or by a code in the latch, has a cause (R249). -/
theorem exists_faultCause (hrun : s.faultCode = 0) (h : runStep s = .next t)
    (hfault : t.result = .faulted ∨ t.faultCode ≠ 0) : ∃ f, FaultCause s f := by
  cases hd : decode s.fetchWord with
  | none => exact ⟨.invalidInstruction, hd⟩
  | some i =>
    rw [runStep_of_decode s hrun hd] at h
    have hres : t.result = .faulted := by
      by_contra hres
      exact hfault.elim hres fun hcode => hcode ((faultCode_of_exec_not_faulted h hres).trans hrun)
    cases execEnds i s with
    | underflows hi hsp => exact ⟨.stackUnderflow, hi ▸ hd, hsp⟩
    | overflows a hi hsp => exact ⟨.stackOverflow, ⟨a, hi ▸ hd⟩, hsp⟩
    | continues _ _ hexec | waits _ _ _ hexec =>
      obtain rfl := Host.Outcome.next.inj (hexec.symm.trans h)
      cases hres

/-- Settles O48: each cause raises its own fault, and what faults has one of the causes. -/
theorem aStepFaultsForThreeCausesOnly : Obligations.AStepFaultsForThreeCausesOnly := by
  intro s t hrun h
  refine ⟨fun hd => faultCode_of_faultCause (f := .invalidInstruction) hrun hd h,
    fun hd hsp => faultCode_of_faultCause (f := .stackOverflow) hrun ⟨hd, hsp⟩ h,
    fun hd hsp => faultCode_of_faultCause (f := .stackUnderflow) hrun ⟨hd, hsp⟩ h, fun hfault => ?_⟩
  obtain ⟨f, hcause⟩ := exists_faultCause hrun h hfault
  cases f with
  | invalidInstruction => exact .inl hcause
  | stackOverflow => exact .inr (.inl hcause)
  | stackUnderflow => exact .inr (.inr hcause)
  | invalidRegister => exact hcause.elim

/-- A fault with a cause has one of the codes 1, 2 and 3 (R121). -/
theorem toNat_code_of_faultCause {f : FaultKind} (hcause : FaultCause s f) : 1 ≤ f.code.toNat ∧ f.code.toNat ≤ 3 := by
  cases f with
  | invalidRegister => exact hcause.elim
  | invalidInstruction | stackUnderflow | stackOverflow => decide

/-- Settles O49: the step has a cause, so it raises that fault with the fetched word. -/
theorem faultsArePrecise : Obligations.FaultsArePrecise := by
  intro s t hrun h hres
  obtain ⟨f, hcause⟩ := exists_faultCause hrun h (.inl hres)
  obtain ⟨u, hraise, hlatch, hsame⟩ := exists_next_of_raise f s.fetchWord s
  have hstep : runStep s = .next u := (runStep_of_faultCause hrun hcause).trans hraise
  obtain rfl := Host.Outcome.next.inj (hstep.symm.trans h)
  rw [faultCode_of_faultCause hrun hcause h]
  exact ⟨hsame, hlatch, toNat_code_of_faultCause hcause⟩

/-- Settles O47: a word that matches no row does not decode, which is the cause of InvalidInstruction. -/
theorem anUnmatchedWordRaisesInvalidInstruction : Obligations.AnUnmatchedWordRaisesInvalidInstruction := by
  intro s hrun hrows
  have hd : decode s.fetchWord = none := (rowsAreDisjointAndDecodeFollowsThem.2.1 s.fetchWord).2 hrows
  rw [runStep_of_faultCause (f := .invalidInstruction) hrun hd]
  exact exists_next_of_raise .invalidInstruction s.fetchWord s

/-! ### A cycle that executes nothing -/

/-- A cycle whose step is not strobed or finds a fault latched: the load port, `result` 0, the tick and `dirty_clr`
(R113, R246). -/
theorem step_of_idle (hnone : s.ports.NoReset) (hidle : s.ports.step = false ∨ s.faultCode ≠ 0) :
    step s = .next ((s.afterLoad.setResult .idle).afterStep s.ports false) := by
  have hexecutes : s.afterLoad.executes s.ports = none := by
    refine Option.eq_none_iff_forall_ne_some.2 fun i hi => ?_
    obtain ⟨⟨-, hstep⟩, hrun, -⟩ := (executes_afterLoad_iff hnone).1 hi
    exact hidle.elim (fun hlow => Bool.false_ne_true (hlow.symm.trans hstep)) fun hfault => hfault hrun
  have hphase : stepPhase s.ports s.afterLoad = .next (s.afterLoad.setResult .idle) := by
    cases hstep : s.ports.step with
    | false => simp [stepPhase, hstep]
    | true =>
      have hfault : s.faultCode ≠ 0 := hidle.resolve_left (by simp [hstep])
      rw [stepPhase, if_pos hstep, runStep_of_faulted _ (by simpa using hfault)]
  rw [step, clockCycle_of_run s _ hnone.1 hnone.2, hexecutes, hphase]
  rfl

theorem dt_toNat_afterStep (s : State) (p : Ports) (drew : Bool) :
    (s.afterStep p drew).dt.toNat = ticked p s.dt.toNat := by
  rw [State.dt_afterStep, ticked_timer]

theorem st_toNat_afterStep (s : State) (p : Ports) (drew : Bool) :
    (s.afterStep p drew).st.toNat = ticked p s.st.toNat := by
  rw [State.st_afterStep, ticked_timer]

theorem sameBut_afterLoad_afterStep (s : State) (p : Ports) (r : StepResult) (drew : Bool) :
    SameBut [.mem, .delay, .sound, .dirty, .env] s ((s.afterLoad.setResult r).afterStep p drew) := by
  intro part hpart
  cases part <;> simp_all [Part.Same]

/-- Settles O50: the faulted cycle executes nothing, and of its other phases the load port writes only memory, the tick
the timers, and `dirty_clr` DIRTY. -/
theorem aFaultedBlockExecutesNothing : Obligations.AFaultedBlockExecutesNothing := by
  intro s hfault hnone
  refine ⟨_, step_of_idle hnone (.inr hfault), by simp, by simp, by simp, ?_, ?_, by simp,
    sameBut_afterLoad_afterStep s _ _ _⟩
  · rw [dt_toNat_afterStep, State.dt_setResult, State.dt_loadPort]
  · rw [st_toNat_afterStep, State.st_setResult, State.st_loadPort]

/-- Settles O51: full reset clears the latch, a partial clear keeps it, and any other cycle of a faulted block executes
nothing. -/
theorem onlyFullResetClearsTheLatch : Obligations.OnlyFullResetClearsTheLatch := by
  intro s t hfault h
  cases step_cases h with
  | reset hrst ht => exact ⟨fun hlow => absurd (hlow.symm.trans hrst) Bool.false_ne_true, fun _ => ht ▸ rfl⟩
  | clears hrst _ ht =>
    exact ⟨fun _ => by simp [ht, Part.Same], fun hhigh => absurd (hrst.symm.trans hhigh) Bool.false_ne_true⟩
  | runs hnone =>
    obtain rfl := Host.Outcome.next.inj ((step_of_idle hnone (.inr hfault)).symm.trans h)
    exact ⟨fun _ => sameBut_afterLoad_afterStep s _ _ _ .latch (by simp),
      fun hhigh => absurd (hnone.1.symm.trans hhigh) Bool.false_ne_true⟩

end Sys2Proof.Machine
end

section
/-! PROOFS. The timers (R255–R260): in a cycle only SetDelay and SetSound set one, the tick follows the step, and ticks
alone let them fall to 0. -/

namespace Sys2Proof.Machine
variable {s t : State}

/-! ### One cycle -/

/-- The step of a cycle keeps every part that its instruction may not write, but for the latch of a failed decode. -/
theorem StepPhase.same {p : Ports} {part : Part} (h : StepPhase p s t) (hlatch : part ≠ .latch)
    (hpart : ∀ i, s.executes p = some i → part ∉ mayWrite i) : part.Same s t := by
  cases h with
  | idle _ ht => exact ht ▸ sameBut_setResult [] s _ part (by simp)
  | unmatched _ _ _ ht =>
    obtain ⟨u, hraise, -, hsame⟩ := exists_next_of_raise .invalidInstruction s.fetchWord s
    obtain rfl := Host.Outcome.next.inj hraise
    exact ht ▸ hsame part (by simpa using hlatch)
  | executes i hi hexec => exact instructionsWriteOnlyTheirParts i s t hexec part (hpart i hi)

theorem delay_mem_mayWrite_iff {i : Instr} : .delay ∈ mayWrite i ↔ ∃ x, i = .setDelay x := by
  cases i <;> simp [mayWrite]

theorem sound_mem_mayWrite_iff {i : Instr} : .sound ∈ mayWrite i ↔ ∃ x, i = .setSound x := by
  cases i <;> simp [mayWrite]

/-- A cycle without reset and clear is its step and what follows the step. -/
theorem exists_stepPhase_of_noReset (hnone : s.ports.NoReset) (h : step s = .next t) :
    ∃ u drew, StepPhase s.ports s.afterLoad u ∧ t = u.afterStep s.ports drew := by
  cases step_cases h with
  | reset hrst => exact absurd (hnone.1.symm.trans hrst) Bool.false_ne_true
  | clears _ hclr => exact absurd (hnone.2.symm.trans hclr) Bool.false_ne_true
  | runs _ u hphase ht => exact ⟨u, _, hphase, ht⟩

/-- Settles O36: a step that executes neither SetDelay nor SetSound keeps the timers for the tick. -/
theorem onlyTheTickDecrementsTheTimers : Obligations.OnlyTheTickDecrementsTheTimers := by
  intro s t hnone h
  obtain ⟨u, drew, hphase, rfl⟩ := exists_stepPhase_of_noReset hnone h
  refine ⟨fun hset => ?_, fun hset => ?_⟩
  · have hdt : u.dt = s.afterLoad.dt := hphase.same (part := .delay) (by decide) fun i hi hmem => by
      obtain ⟨x, rfl⟩ := delay_mem_mayWrite_iff.1 hmem
      exact hset x ((executes_afterLoad_iff hnone).1 hi)
    rw [dt_toNat_afterStep, hdt, State.dt_loadPort]
  · have hst : u.st = s.afterLoad.st := hphase.same (part := .sound) (by decide) fun i hi hmem => by
      obtain ⟨x, rfl⟩ := sound_mem_mayWrite_iff.1 hmem
      exact hset x ((executes_afterLoad_iff hnone).1 hi)
    rw [st_toNat_afterStep, hst, State.st_loadPort]

theorem ticked_of_tick {p : Ports} (htick : p.tick = true) (v : Nat) : ticked p v = v - 1 := if_pos htick

/-- A cycle with a tick that executes an instruction that advances: the registers of its update, and its timers one
lower (R259). -/
theorem step_of_advance_of_tick {i : Instr} {u : State} (htick : s.ports.tick = true) (h : s.Executes i)
    (hexec : exec i s.afterLoad = advance u) :
    ∃ t, step s = .next t ∧ (∀ r, t.readV r = u.readV r) ∧ t.dt.toNat = u.dt.toNat - 1 ∧
      t.st.toNat = u.st.toNat - 1 := by
  refine ⟨_, step_of_executes h hexec, by simp, ?_, ?_⟩
  · rw [dt_toNat_afterStep, ticked_of_tick htick]; rfl
  · rw [st_toNat_afterStep, ticked_of_tick htick]; rfl

/-- Settles O37: what follows the step takes its timers; for the timer instructions, those of their one write. -/
theorem theTickFollowsTheStepOfItsCycle : Obligations.TheTickFollowsTheStepOfItsCycle := by
  refine fun x s htick => ⟨fun i t h hexec => ?_, fun h => ?_, fun h => ?_, fun h => ?_⟩
  · refine ⟨_, step_of_executes h hexec, ?_, ?_⟩
    · rw [dt_toNat_afterStep, ticked_of_tick htick]
    · rw [st_toNat_afterStep, ticked_of_tick htick]
  · obtain ⟨t, hstep, hread, hdt, -⟩ := step_of_advance_of_tick htick h rfl
    exact ⟨t, hstep, by simp [hread], by simpa using hdt⟩
  · obtain ⟨t, hstep, -, hdt, -⟩ := step_of_advance_of_tick htick h rfl
    exact ⟨t, hstep, by simpa using hdt⟩
  · obtain ⟨t, hstep, -, -, hst⟩ := step_of_advance_of_tick htick h rfl
    exact ⟨t, hstep, by simpa using hst⟩

/-! ### Cycles of ticks -/

theorem Part.Same.refl (part : Part) (s : State) : part.Same s s := by cases part <;> simp [Part.Same]

theorem Part.Same.trans {part : Part} {s t u : State} (hst : part.Same s t) (htu : part.Same t u) :
    part.Same s u := by
  cases part <;> simp_all [Part.Same]

/-- A cycle in which only the tick is strobed moves only the timers and the schedule (R255, R290). -/
theorem step_of_onlyTicks (h : s.ports.OnlyTicks) :
    ∃ t, step s = .next t ∧ t.dt.toNat = s.dt.toNat - 1 ∧ t.st.toNat = s.st.toNat - 1 ∧ t.pc = s.pc ∧
      t.inputs = s.inputs.tail ∧ SameBut [.delay, .sound, .env] s t := by
  obtain ⟨hnone, hstep, hld, hdirty, htick⟩ := h
  have hload : s.afterLoad = s := s.loadPort_of_not_ldWe _ hld
  refine ⟨_, step_of_idle hnone (.inl hstep), ?_, ?_, by simp, by simp, fun part hpart => ?_⟩
  · rw [dt_toNat_afterStep, ticked_of_tick htick, hload]; rfl
  · rw [st_toNat_afterStep, ticked_of_tick htick, hload]; rfl
  · rw [hload]
    cases part <;> simp_all [Part.Same]

theorem runCycles_succ_of_step {u : State} (n : Nat) (h : step s = .next u) : runCycles (n + 1) s = runCycles n u := by
  rw [runCycles, h]

/-- Settles O38: by induction on the schedule of tick cycles. -/
theorem timersDecayToZeroAndStay : Obligations.TimersDecayToZeroAndStay := by
  intro ps rest s hinputs hps
  induction ps generalizing s with
  | nil => exact ⟨s, rfl, rfl, rfl, rfl, hinputs, fun part _ => .refl part s⟩
  | cons p ps ih =>
    have hports : s.ports = p := by simp [State.ports, hinputs]
    obtain ⟨u, hstep, hdt, hst, hpc, htail, hsame⟩ := step_of_onlyTicks (hports ▸ hps p (.head _))
    obtain ⟨t, hrun, hdt', hst', hpc', hrest, hsame'⟩ :=
      ih u (by rw [htail, hinputs]; rfl) fun q hq => hps q (.tail _ hq)
    refine ⟨t, (runCycles_succ_of_step ps.length hstep).trans hrun, ?_, ?_, hpc'.trans hpc, hrest,
      fun part hpart => (hsame part hpart).trans (hsame' part hpart)⟩
    · rw [hdt', hdt, List.length_cons]; omega
    · rw [hst', hst, List.length_cons]; omega

end Sys2Proof.Machine
end

section
/-! PROOFS. The ports of the block (R29): which of them an instruction reads (R263, R264), and what the outputs show
(R206, R258). -/

namespace Sys2Proof.Machine

/-- Settles O44: another record in the schedule gives a key instruction the same key and Random the same byte, and no
other instruction uses one. -/
theorem onlyKeyAndRandomInstructionsReadPorts : Obligations.OnlyKeyAndRandomInstructionsReadPorts := by
  intro i p q rest s t hinputs hkey hrnd h
  have hp : s.ports = p := by simp [State.ports, hinputs]
  have hq : (s.withInputs (q :: rest)).ports = q := rfl
  have hkey' : readsKey i = true → (s.withInputs (q :: rest)).ports.key = s.ports.key := fun hi => by
    obtain ⟨hvalid, hcode⟩ := hkey hi
    rw [hp, hq, Ports.key, Ports.key, hvalid, hcode]
  have hrnd' : (∃ x nn, i = .random x nn) → (s.withInputs (q :: rest)).ports.rnd = s.ports.rnd := by
    rwa [hp, hq]
  calc exec i (s.withInputs (q :: rest))
      = rescheduled (q :: rest) (exec i s) := exec_withInputs hkey' hrnd'
    _ = .next (t.withInputs (q :: rest)) := by rw [h, rescheduled_next]

/-- A bit vector is not zero, as a Boolean and as a number. -/
theorem bne_zero_iff_toNat_ne_zero {w : Nat} (b : BitVec w) : (b != 0) = true ↔ b.toNat ≠ 0 := by
  rw [bne_iff_ne, ← BitVec.toNat_ne_iff_ne, BitVec.ofNat_eq_ofNat, BitVec.toNat_zero]

theorem fbPix_outputs {p : Ports} {r : Fin 32} {c : Fin 64} (s : State) (hr : p.fbRy.toNat = r.val)
    (hc : p.fbRx.toNat = c.val) : (s.outputs p).fbPix = s.fb.pixel r c := by
  obtain rfl : (⟨p.fbRy.toNat, p.fbRy.isLt⟩ : Fin 32) = r := Fin.ext hr
  obtain rfl : (⟨p.fbRx.toNat, p.fbRx.isLt⟩ : Fin 64) = c := Fin.ext hc
  rfl

/-- Settles O39: `sound_on` and `faulted` compare a bit vector with 0, and the other outputs are fields of the state. -/
theorem outputsShowTheState : Obligations.OutputsShowTheState := fun _ s =>
  ⟨bne_zero_iff_toNat_ne_zero s.st, bne_zero_iff_toNat_ne_zero s.faultCode, fun _ _ => fbPix_outputs s, rfl, rfl, rfl, rfl⟩

end Sys2Proof.Machine
end

section
/-! PROOFS. Reset, partial clears, load port and boot (R280–R290): what a cycle with `rst`, a clear or a load leaves, and
the load of a whole image as one load cycle after another. -/

namespace Sys2Proof.Machine
variable {s t u : State}

/-! ### Full reset and partial clears -/

/-- A cycle under full reset ends in the reset state of the block's FONT, but for the model's own fields (R280, R281). -/
theorem step_of_rst (h : s.ports.rst = true) : step s = .next s.fullReset.endCycle := clockCycle_of_rst s _ h

/-- Settles O53: the cycle ends in the state after reset of a block with the same FONT. -/
theorem fullResetOverridesEverything : Obligations.FullResetOverridesEverything := fun s h =>
  ⟨_, step_of_rst h, rfl, resetValuesAreTheTables s.font⟩

@[simp] theorem State.readV_applyClears (s : State) (p : Ports) (r : RegIdx) :
    (s.applyClears p).readV r = if p.clrRegs = true then 0 else s.readV r := by
  simp only [State.readV, State.v_applyClears]
  split
  · exact State.readV_resetWith _ r
  · rfl

@[simp] theorem State.readStack_applyClears (s : State) (p : Ports) (k : BitVec 5) :
    (s.applyClears p).readStack k = if p.clrStack = true then 0 else s.readStack k := by
  simp only [State.readStack, State.stack_applyClears]
  split
  · exact State.readStack_resetWith _ k
  · rfl

/-- What the clears leave in the memory of FONT (R283). -/
theorem State.byteAt_applyClears_font (s : State) (p : Ports) (a : Nat) (h : a < 80) :
    (s.applyClears p).byteAt a = if p.clrMem = true then s.font[a] else s.byteAt a := by
  rw [State.byteAt_applyClears, ← State.byteAt_resetWith, State.byteAt_resetWith_font _ a h]

/-- What the clears leave in the memory above FONT (R283). -/
theorem State.byteAt_applyClears_zero (s : State) (p : Ports) (a : Nat) (h : 80 ≤ a) :
    (s.applyClears p).byteAt a = if p.clrMem = true then 0 else s.byteAt a := by
  rw [State.byteAt_applyClears, ← State.byteAt_resetWith, State.byteAt_resetWith_zero _ a h]

/-- Settles O54: the cycle is the clears, then `dirty_clr`, and each clear replaces its own part by its reset value. -/
theorem partialClearsClearTheirPartsOnly : Obligations.PartialClearsClearTheirPartsOnly := by
  intro s hrst hclr
  refine ⟨_, clockCycle_of_clear s _ hrst hclr, rfl, fun a h => ?_, fun a h => ?_, ?_⟩
  · simpa using s.byteAt_applyClears_font _ a h
  · simpa using s.byteAt_applyClears_zero _ a h
  · simp [Part.Same]

/-! ### The load port -/

/-- Settles O55: the load port writes one byte, and what follows it in a cycle that executes nothing writes no memory. -/
theorem theLoadPortWritesTheProgramArea : Obligations.TheLoadPortWritesTheProgramArea := by
  intro s a hwf
  refine ⟨s.read_loadPort _ hwf a, fun t hnone hidle h => ?_⟩
  obtain rfl := Host.Outcome.next.inj ((step_of_idle hnone hidle).symm.trans h)
  exact ⟨by simp, by simp, sameBut_afterLoad_afterStep s _ _ _⟩

/-! ### The load of an image -/

theorem SameBut.trans {c : List Part} (hsu : SameBut c s u) (hut : SameBut c u t) : SameBut c s t :=
  fun part hpart => (hsu part hpart).trans (hut part hpart)

/-- `t` is `s` with the bytes `bs` loaded from the offset `k` of the program area on: no other byte and no other part
changed, but for the model's own schedule and cycle count. -/
structure Loaded (k : Nat) (bs : List Byte) (s t : State) : Prop where
  pc : t.pc = s.pc
  same : SameBut [.mem, .env] s t
  image : ∀ j (hj : j < bs.length), t.byteAt (0x200 + k + j) = bs[j]
  others : ∀ a, a < 0x200 + k ∨ 0x200 + k + bs.length ≤ a → t.byteAt a = s.byteAt a

theorem Loaded.nil (k : Nat) (s : State) : Loaded k [] s s :=
  ⟨rfl, fun part _ => .refl part s, nofun, fun _ _ => rfl⟩

/-- One byte is loaded, then the others behind it. -/
theorem Loaded.cons {k : Nat} {b : Byte} {bs : List Byte} (hb : Loaded k [b] s u) (hbs : Loaded (k + 1) bs u t) :
    Loaded k (b :: bs) s t where
  pc := hbs.pc.trans hb.pc
  same := hb.same.trans hbs.same
  image
    | 0, _ => (hbs.others _ (.inl (by omega))).trans (hb.image 0 Nat.one_pos)
    | j + 1, hj => by
      rw [show 0x200 + k + (j + 1) = 0x200 + (k + 1) + j by omega]
      exact hbs.image j (Nat.lt_of_succ_lt_succ hj)
  others a ha := by
    rw [List.length_cons] at ha
    exact (hbs.others a (by omega)).trans (hb.others a (by rw [List.length_singleton]; omega))

/-- Without tick and `dirty_clr`, what follows an idle step keeps the timers and DIRTY too (R290). -/
theorem sameBut_afterLoad_afterStep_of_no_strobe (htick : s.ports.tick = false) (hdirty : s.ports.dirtyClr = false) :
    SameBut [.mem, .env] s ((s.afterLoad.setResult .idle).afterStep s.ports false) := by
  intro part hpart
  cases part with
  | delay | sound => simp [Part.Same, htick]
  | dirty => simp [Part.Same, hdirty]
  | mem | env => simp at hpart
  | _ => exact sameBut_afterLoad_afterStep s _ _ _ _ (by decide)

theorem toNat_ldOff_loadCycle {k : Nat} (b : Byte) (hk : k < 3584) : (Ports.loadCycle k b).ldOff.toNat = k :=
  Nat.mod_eq_of_lt (by omega)

/-- One load cycle writes its byte at its offset, whether or not the block is faulted (R287, R289). -/
theorem step_of_loadCycle {k : Nat} {b : Byte} (hports : s.ports = .loadCycle k b) (hk : k < 3584)
    (hwf : s.memWf = true) :
    ∃ t, step s = .next t ∧ t.memWf = true ∧ t.inputs = s.inputs.tail ∧ Loaded k [b] s t := by
  have hstep := step_of_idle (s := s) (hports ▸ ⟨rfl, rfl⟩) (.inl (hports ▸ rfl))
  have hread : ∀ a, s.afterLoad.byteAt a = if a = 0x200 + k then b else s.byteAt a := fun a => by
    rw [s.read_loadPort _ hwf, hports, toNat_ldOff_loadCycle b hk]
    simp [Ports.loadCycle, hk]
  refine ⟨_, hstep, by simpa using s.loadPort_wf _ hwf, by simp, by simp,
    sameBut_afterLoad_afterStep_of_no_strobe (hports ▸ rfl) (hports ▸ rfl), fun j hj => ?_, fun a ha => ?_⟩
  · obtain rfl : j = 0 := Nat.lt_one_iff.1 hj
    simp [hread]
  · have hne : a ≠ 0x200 + k := by rw [List.length_singleton] at ha; omega
    simp [hread, hne]

/-- The load cycles of an image that fits write it byte for byte (R286, R287). -/
theorem runCycles_loadCycles {k : Nat} {bs : List Byte} (hinputs : s.inputs = loadCycles k bs)
    (hfits : k + bs.length ≤ 3584) (hwf : s.memWf = true) :
    ∃ t, runCycles bs.length s = .next t ∧ t.inputs = [] ∧ Loaded k bs s t := by
  induction bs generalizing s k with
  | nil => exact ⟨s, rfl, hinputs, .nil k s⟩
  | cons b bs ih =>
    rw [List.length_cons] at hfits
    have hports : s.ports = .loadCycle k b := by simp [State.ports, hinputs, loadCycles]
    obtain ⟨u, hstep, huwf, htail, hb⟩ := step_of_loadCycle hports (by omega) hwf
    obtain ⟨t, hrun, hdone, hbs⟩ := ih (s := u) (k := k + 1) (by rw [htail, hinputs]; rfl) (by omega) huwf
    exact ⟨t, (runCycles_succ_of_step bs.length hstep).trans hrun, hdone, hb.cons hbs⟩

/-! ### The boot sequence -/

theorem bootWith_of_fits {image : List Byte} (s : State) (h : image.length ≤ 3584) :
    bootWith image s = .next (s.withInputs (bootCycles image)) := if_pos (decide_eq_true h)

theorem bootWith_of_too_long {image : List Byte} (s : State) (h : 3584 < image.length) :
    bootWith image s = .refused .imageTooLong := if_neg (by simpa [imageWellFormed] using h)

/-- A reset cycle leaves the reset state of the block's FONT, but for the model's own schedule and cycle count (R280;
entry 10). -/
theorem sameBut_resetWith_fullReset_endCycle (s : State) :
    SameBut [.env] (State.resetWith s.font) s.fullReset.endCycle := by
  intro part hpart
  cases part with
  | env => simp at hpart
  | regs | mem => exact fun _ => rfl
  | pixels => exact fun _ _ => rfl
  | stack => exact ⟨rfl, fun _ => rfl⟩
  | latch => exact ⟨rfl, rfl, rfl⟩
  | _ => rfl

/-- Settles O56: the reset cycle leaves the reset state of the block's FONT, and the load cycles write the image into
it. -/
theorem bootLoadsTheImageOrRefusesIt : Obligations.BootLoadsTheImageOrRefusesIt := by
  refine ⟨fun image s hfits => ?_, fun image s => bootWith_of_too_long s⟩
  have hreset := step_of_rst (s := s.withInputs (bootCycles image)) rfl
  have hsame := sameBut_resetWith_fullReset_endCycle (s.withInputs (bootCycles image))
  obtain ⟨t, hrun, hdone, hloaded⟩ :=
    runCycles_loadCycles (s := (s.withInputs (bootCycles image)).fullReset.endCycle) (k := 0) rfl
      (by rwa [Nat.zero_add]) rfl
  refine ⟨_, t, bootWith_of_fits s hfits, ?_, hdone, hloaded.pc, (hsame.mono (by decide)).trans hloaded.same,
    hloaded.image, hloaded.others⟩
  rw [Nat.add_comm, runCycles_succ_of_step _ hreset, hrun]

end Sys2Proof.Machine
end
